-- ==== Sys2Proof/Word.lean ====
section
/-! DEFINITION. The word, byte and field types of the core (rules R9, R11, R201, R308), and the two
shapes of storage: a register file and a byte memory. Their accessors are in Machine/Ops.lean. -/

namespace Sys2Proof

/-- A 32-bit value: a register, an address, an instruction word (R9, R12, R201, R300). -/
abbrev Word := BitVec 32

/-- One byte of memory (R201). -/
abbrev Byte := BitVec 8

/-- A 5-bit register index, naming r0 to r31 or f0 to f31 (R308). -/
abbrev RegIx := BitVec 5

/-- The 16-bit immediate field (R301). -/
abbrev Imm16 := BitVec 16

/-- The 26-bit jump target field (R301). -/
abbrev Target26 := BitVec 26

/-- Thirty-two 32-bit registers (R101, R104, R108). Slot 0 of a general register file is never
shown: `RegFile.read` answers 0 for it (R102). -/
structure RegFile where
  vals : Vector Word 32
  deriving DecidableEq, Repr, Inhabited

/-- Memory as a list of (address, byte) cells, addresses strictly rising, no cell holding what an
unlisted address reads as (`Memory.wf`). -/
structure Memory where
  cells : List Host.Cell
  deriving DecidableEq, Repr, Inhabited

end Sys2Proof
end

