-- ==== Sys2Proof/Machine/Flags.lean ====
section
/-! DEFINITION. The core has no flags: a comparison writes 0 or 1 to a register and a branch compares
registers itself (R124). This file holds those comparisons. -/

namespace Sys2Proof.Machine

/-- A truth value as a register value: 1 or 0 (R124, R518). -/
def ofBool (b : Bool) : Word := if b then 1#32 else 0#32

/-- `signed(a) < signed(b)` (R12, R518). -/
def signedLess (a b : Word) : Bool := decide (a.toInt < b.toInt)

/-- `unsigned(a) < unsigned(b)` (R12, R519). -/
def unsignedLess (a b : Word) : Bool := decide (a.toNat < b.toNat)

/-- `x[rs] = x[rt]` (R610). -/
def condEqual (a b : Word) : Bool := decide (a = b)

/-- `x[rs] != x[rt]` (R611). -/
def condNotEqual (a b : Word) : Bool := !condEqual a b

/-- `signed(x[rs]) <= 0` (R612). -/
def condLessEqualZero (a : Word) : Bool := decide (a.toInt ≤ 0)

/-- `signed(x[rs]) > 0` (R613). -/
def condGreaterZero (a : Word) : Bool := decide (0 < a.toInt)

/-- `signed(x[rs]) < 0` (R614, R616). -/
def condLessZero (a : Word) : Bool := decide (a.toInt < 0)

/-- `signed(x[rs]) >= 0` (R615, R617). -/
def condGreaterEqualZero (a : Word) : Bool := decide (0 ≤ a.toInt)

end Sys2Proof.Machine
end

