-- ==== Sys2Proof/Config.lean ====
section
/-! DEFINITION. What an implementation fixes: the constants and the OPEN parameters of rule R9, the
interface of the system-call emulator (R812), and the model's free values. -/

namespace Sys2Proof

/-! ### Constants of the source (R9, R10): named once, used by name -/

/-- LOAD_USE_STALL (R9, R422). -/
def Config.loadUseStall : Nat := 2
/-- HILO_STALL_E (R9, R423). -/
def Config.hiloStallE : Nat := 4
/-- HILO_STALL_M (R9, R423). -/
def Config.hiloStallM : Nat := 3
/-- HILO_STALL_W (R9, R423). -/
def Config.hiloStallW : Nat := 2
/-- STORE_STALL_E (R9, R424). -/
def Config.storeStallE : Nat := 4
/-- STORE_STALL_M (R9, R424). -/
def Config.storeStallM : Nat := 3
/-- STORE_STALL_W (R9, R424). -/
def Config.storeStallW : Nat := 2
/-- DIV0_HI (R9, R562, R563). -/
def Config.div0Hi : Word := 0x7fffffff#32
/-- DIV0_LO (R9, R562, R563). -/
def Config.div0Lo : Word := 0x7fffffff#32
/-- What an address no store has written reads as. DESIGN CHOICE (log entry 2), unsafe: INIT_MEM is
a launch parameter; a launch memory lists the bytes in which it differs from this one. -/
def Config.unlistedByte : Byte := 0#8

/-! ### OPEN parameters (R9): held in the state, never changed by a step -/

/-- DIV_OVERFLOW (R562, D18). -/
inductive DivOverflowMode where
  | fault
  | value (h l : Word)
  deriving DecidableEq, Repr, Inhabited

/-- SYSCALL_RESUME (R814, D15). -/
inductive ResumeMode where
  | after
  | replay
  deriving DecidableEq, Repr, Inhabited

/-- BREAK_MODE (R323, R701, D16). -/
inductive BreakMode where
  | trap
  | illegal
  deriving DecidableEq, Repr, Inhabited

/-- FPR_HAZARD_MODE (R432, D47). -/
inductive FprHazardMode where
  | stale
  | draw
  deriving DecidableEq, Repr, Inhabited

/-- A run of MAPPED aligned 8-byte words: word number n (address divided by 8) is in it when
`first ≤ n` and `n < stop`. Every predicate MAPPED of R211 is a list of these. -/
structure Region where
  first : Nat
  stop  : Nat
  deriving DecidableEq, Repr, Inhabited

/-- The OPEN parameters of R9 that are data, with R9's defaults. `mapped` has no default in the
spec: all of the address space is a DESIGN CHOICE (log entry 3). -/
structure Params where
  divOverflow   : DivOverflowMode := .fault
  syscallResume : ResumeMode := .after
  breakMode     : BreakMode := .trap
  fprHazard     : FprHazardMode := .stale
  fetchBudget   : Option Nat := none
  mapped        : List Region := [{ first := 0, stop := 2 ^ 29 }]
  deriving DecidableEq, Repr, Inhabited

/-! ### The system-call emulator (R812) -/

/-- The emulated operating-system state `os`, opaque to the core (R127). DESIGN CHOICE (log entry
5): a string of bytes can encode whatever the emulator keeps. -/
structure OsState where
  bytes : List Byte
  deriving DecidableEq, Repr, Inhabited

/-- What the emulator receives: the committed registers, all of memory, `os` and the instruction
word (R812, D42). -/
structure SysRequest where
  gpr : RegFile
  mem : Memory
  os  : OsState
  ins : Word
  deriving DecidableEq, Repr

/-- What the emulator answers: whether it ends the run, the registers and the bytes it writes, each in
order, and the `os` it leaves (R812, D17, D30). It has no way to name `pc`, `hi`, `lo`, `fpr`, `byp`, a
latch or a counter. -/
structure SysReply where
  leaves : Bool
  regs   : List (RegIx × Word)
  bytes  : List (Word × Byte)
  os     : OsState
  deriving DecidableEq, Repr, Inhabited

/-- SYSHANDLER (R9, R812): the parameter has no body, so nothing can be proved about its answers. -/
opaque Config.sysHandler : SysRequest → SysReply

/-- The value `mfc1` reads in the FPR hazard window under FPR_HAZARD_MODE = draw (R432): a fresh
free value for every draw; no body. -/
opaque Config.freeFprRead : Nat → Word

end Sys2Proof
end

