-- ==== Sys2Proof/Syntax.lean ====
section
/-! DEFINITION. The 62 instructions (R315), one constructor per row of spec/opcode_table.json, the
operands in the assembler's order (R340). Fields an instruction does not use are no operands (R322). -/

namespace Sys2Proof

inductive Instr where
  -- 41_alu.md: register-register operations
  /-- `add rd, rs, rt` (R510) -/
  | add (rd rs rt : RegIx)
  /-- `addu rd, rs, rt` (R511) -/
  | addu (rd rs rt : RegIx)
  /-- `sub rd, rs, rt` (R512) -/
  | sub (rd rs rt : RegIx)
  /-- `subu rd, rs, rt` (R513) -/
  | subu (rd rs rt : RegIx)
  /-- `and rd, rs, rt` (R514) -/
  | and (rd rs rt : RegIx)
  /-- `or rd, rs, rt` (R515) -/
  | or (rd rs rt : RegIx)
  /-- `xor rd, rs, rt` (R516) -/
  | xor (rd rs rt : RegIx)
  /-- `nor rd, rs, rt` (R517) -/
  | nor (rd rs rt : RegIx)
  /-- `slt rd, rs, rt` (R518) -/
  | slt (rd rs rt : RegIx)
  /-- `sltu rd, rs, rt` (R519) -/
  | sltu (rd rs rt : RegIx)
  -- 41_alu.md: shifts; the amount of an immediate shift is a number 0 to 31 (R307)
  /-- `sll rd, rt, shamt` (R520) -/
  | sll (rd rt : RegIx) (shamt : Nat)
  /-- `srl rd, rt, shamt` (R521) -/
  | srl (rd rt : RegIx) (shamt : Nat)
  /-- `sra rd, rt, shamt` (R522) -/
  | sra (rd rt : RegIx) (shamt : Nat)
  /-- `sllv rd, rt, rs` (R523) -/
  | sllv (rd rt rs : RegIx)
  /-- `srlv rd, rt, rs` (R524) -/
  | srlv (rd rt rs : RegIx)
  /-- `srav rd, rt, rs` (R525) -/
  | srav (rd rt rs : RegIx)
  -- 41_alu.md: register-immediate operations
  /-- `addi rt, rs, imm` (R530) -/
  | addi (rt rs : RegIx) (imm : Imm16)
  /-- `addiu rt, rs, imm` (R531) -/
  | addiu (rt rs : RegIx) (imm : Imm16)
  /-- `slti rt, rs, imm` (R532) -/
  | slti (rt rs : RegIx) (imm : Imm16)
  /-- `sltiu rt, rs, imm` (R533) -/
  | sltiu (rt rs : RegIx) (imm : Imm16)
  /-- `andi rt, rs, imm` (R534) -/
  | andi (rt rs : RegIx) (imm : Imm16)
  /-- `ori rt, rs, imm` (R535) -/
  | ori (rt rs : RegIx) (imm : Imm16)
  /-- `xori rt, rs, imm` (R536) -/
  | xori (rt rs : RegIx) (imm : Imm16)
  /-- `lui rt, imm` (R537) -/
  | lui (rt : RegIx) (imm : Imm16)
  -- 42_muldiv.md
  /-- `mult rs, rt` (R560) -/
  | mult (rs rt : RegIx)
  /-- `multu rs, rt` (R561) -/
  | multu (rs rt : RegIx)
  /-- `div rs, rt` (R562) -/
  | div (rs rt : RegIx)
  /-- `divu rs, rt` (R563) -/
  | divu (rs rt : RegIx)
  /-- `mfhi rd` (R570) -/
  | mfhi (rd : RegIx)
  /-- `mflo rd` (R571) -/
  | mflo (rd : RegIx)
  /-- `mthi rs` (R572) -/
  | mthi (rs : RegIx)
  /-- `mtlo rs` (R573) -/
  | mtlo (rs : RegIx)
  -- 43_control.md: conditional branches; the offset counts words (R305)
  /-- `beq rs, rt, offset` (R610) -/
  | beq (rs rt : RegIx) (offset : Imm16)
  /-- `bne rs, rt, offset` (R611) -/
  | bne (rs rt : RegIx) (offset : Imm16)
  /-- `blez rs, offset` (R612) -/
  | blez (rs : RegIx) (offset : Imm16)
  /-- `bgtz rs, offset` (R613) -/
  | bgtz (rs : RegIx) (offset : Imm16)
  /-- `bltz rs, offset` (R614) -/
  | bltz (rs : RegIx) (offset : Imm16)
  /-- `bgez rs, offset` (R615) -/
  | bgez (rs : RegIx) (offset : Imm16)
  /-- `bltzal rs, offset` (R616) -/
  | bltzal (rs : RegIx) (offset : Imm16)
  /-- `bgezal rs, offset` (R617) -/
  | bgezal (rs : RegIx) (offset : Imm16)
  -- 43_control.md: jumps
  /-- `j target` (R620) -/
  | j (target : Target26)
  /-- `jal target` (R621) -/
  | jal (target : Target26)
  /-- `jr rs` (R622) -/
  | jr (rs : RegIx)
  /-- `jalr rd, rs` (R623) -/
  | jalr (rd rs : RegIx)
  -- 44_loadstore.md: loads, written `op rt, offset(rs)`
  /-- `lb rt, offset(rs)` (R660) -/
  | lb (rt : RegIx) (offset : Imm16) (rs : RegIx)
  /-- `lbu rt, offset(rs)` (R661) -/
  | lbu (rt : RegIx) (offset : Imm16) (rs : RegIx)
  /-- `lh rt, offset(rs)` (R662) -/
  | lh (rt : RegIx) (offset : Imm16) (rs : RegIx)
  /-- `lhu rt, offset(rs)` (R663) -/
  | lhu (rt : RegIx) (offset : Imm16) (rs : RegIx)
  /-- `lw rt, offset(rs)` (R664) -/
  | lw (rt : RegIx) (offset : Imm16) (rs : RegIx)
  /-- `lwc1 ft, offset(rs)` (R665) -/
  | lwc1 (ft : RegIx) (offset : Imm16) (rs : RegIx)
  /-- `lwl rt, offset(rs)` (R666) -/
  | lwl (rt : RegIx) (offset : Imm16) (rs : RegIx)
  /-- `lwr rt, offset(rs)` (R667) -/
  | lwr (rt : RegIx) (offset : Imm16) (rs : RegIx)
  -- 44_loadstore.md: stores, written `op rt, offset(rs)`
  /-- `sb rt, offset(rs)` (R670) -/
  | sb (rt : RegIx) (offset : Imm16) (rs : RegIx)
  /-- `sh rt, offset(rs)` (R671) -/
  | sh (rt : RegIx) (offset : Imm16) (rs : RegIx)
  /-- `sw rt, offset(rs)` (R672) -/
  | sw (rt : RegIx) (offset : Imm16) (rs : RegIx)
  /-- `swc1 ft, offset(rs)` (R673) -/
  | swc1 (ft : RegIx) (offset : Imm16) (rs : RegIx)
  /-- `swl rt, offset(rs)` (R674) -/
  | swl (rt : RegIx) (offset : Imm16) (rs : RegIx)
  /-- `swr rt, offset(rs)` (R675) -/
  | swr (rt : RegIx) (offset : Imm16) (rs : RegIx)
  -- 45_system_fp.md
  /-- `syscall`; the code field is no operand (R700) -/
  | syscall
  /-- `break`, named brk because break is a word of Lean's (R701) -/
  | brk
  /-- `mfc1 rt, fs` (R711) -/
  | mfc1 (rt fs : RegIx)
  /-- `mtc1 rt, fs` (R712) -/
  | mtc1 (rt fs : RegIx)
  deriving DecidableEq, Repr

end Sys2Proof
end

