-- ==== Sys2Proof/WellFormed.lean ====
section
/-! DEFINITION. Which instruction terms are well formed: those an encoding exists for (R301, R307),
and which of them may stand in a branch delay slot (R602, R921). -/

namespace Sys2Proof

/-- A shift amount is an unsigned 5-bit number, 0 to 31 (R307). -/
def shamtOk (shamt : Nat) : Bool := decide (shamt < 32)

/-- The term has an encoding. Every register, immediate and target operand fits its field by its
type; only a shift amount can be out of range (R307). -/
def Instr.wellFormed : Instr → Bool
  | .sll _ _ shamt => shamtOk shamt
  | .srl _ _ shamt => shamtOk shamt
  | .sra _ _ shamt => shamtOk shamt
  | .add .. | .addu .. | .sub .. | .subu .. | .and .. | .or .. | .xor .. | .nor ..
  | .slt .. | .sltu .. | .sllv .. | .srlv .. | .srav .. | .addi .. | .addiu .. | .slti ..
  | .sltiu .. | .andi .. | .ori .. | .xori .. | .lui .. | .mult .. | .multu .. | .div ..
  | .divu .. | .mfhi .. | .mflo .. | .mthi .. | .mtlo .. | .beq .. | .bne .. | .blez ..
  | .bgtz .. | .bltz .. | .bgez .. | .bltzal .. | .bgezal .. | .j .. | .jal .. | .jr ..
  | .jalr .. | .lb .. | .lbu .. | .lh .. | .lhu .. | .lw .. | .lwc1 .. | .lwl ..
  | .lwr .. | .sb .. | .sh .. | .sw .. | .swc1 .. | .swl .. | .swr .. | .syscall ..
  | .brk .. | .mfc1 .. | .mtc1 .. => true

/-- The twelve control transfers of 43_control.md (R600). -/
def Instr.isControlTransfer : Instr → Bool
  | .beq .. | .bne .. | .blez .. | .bgtz .. | .bltz .. | .bgez .. | .bltzal .. | .bgezal ..
  | .j .. | .jal .. | .jr .. | .jalr .. => true
  | .add .. | .addu .. | .sub .. | .subu .. | .and .. | .or .. | .xor .. | .nor ..
  | .slt .. | .sltu .. | .sll .. | .srl .. | .sra .. | .sllv .. | .srlv .. | .srav ..
  | .addi .. | .addiu .. | .slti .. | .sltiu .. | .andi .. | .ori .. | .xori .. | .lui ..
  | .mult .. | .multu .. | .div .. | .divu .. | .mfhi .. | .mflo .. | .mthi .. | .mtlo ..
  | .lb .. | .lbu .. | .lh .. | .lhu .. | .lw .. | .lwc1 .. | .lwl .. | .lwr ..
  | .sb .. | .sh .. | .sw .. | .swc1 .. | .swl .. | .swr .. | .syscall .. | .brk ..
  | .mfc1 .. | .mtc1 .. => false

/-- `syscall`, and `break` where it traps (R421, R701). -/
def Instr.isTrap (mode : BreakMode) : Instr → Bool
  | .syscall => true
  | .brk => decide (mode = .trap)
  | .add .. | .addu .. | .sub .. | .subu .. | .and .. | .or .. | .xor .. | .nor ..
  | .slt .. | .sltu .. | .sll .. | .srl .. | .sra .. | .sllv .. | .srlv .. | .srav ..
  | .addi .. | .addiu .. | .slti .. | .sltiu .. | .andi .. | .ori .. | .xori .. | .lui ..
  | .mult .. | .multu .. | .div .. | .divu .. | .mfhi .. | .mflo .. | .mthi .. | .mtlo ..
  | .beq .. | .bne .. | .blez .. | .bgtz .. | .bltz .. | .bgez .. | .bltzal .. | .bgezal ..
  | .j .. | .jal .. | .jr .. | .jalr .. | .lb .. | .lbu .. | .lh .. | .lhu ..
  | .lw .. | .lwc1 .. | .lwl .. | .lwr .. | .sb .. | .sh .. | .sw .. | .swc1 ..
  | .swl .. | .swr .. | .mfc1 .. | .mtc1 .. => false

/-- Software may put the instruction in a delay slot: no control transfer, no trap (R602, R921). -/
def Instr.delaySlotOk (mode : BreakMode) (i : Instr) : Bool :=
  !(i.isControlTransfer || i.isTrap mode)

end Sys2Proof
end

