-- ==== Sys2Proof/Decode.lean ====
section
/-! DEFINITION. The fields of an instruction word (R301, R302), the decoder of the opcode maps (R310
to R314), total on every word and on every list of bytes, and the encoder of the same maps. -/

namespace Sys2Proof

/-! ### Fields (R301) -/

/-- Bits 31:26. -/
def opcodeOf (w : Word) : BitVec 6 := w.extractLsb' 26 6
/-- Bits 25:21; `fmt` of a COP1 word (R302). -/
def rsOf (w : Word) : RegIx := w.extractLsb' 21 5
/-- Bits 20:16; `ft` of lwc1 and swc1 (R302). -/
def rtOf (w : Word) : RegIx := w.extractLsb' 16 5
/-- Bits 15:11; `fs` of mfc1 and mtc1 (R302). -/
def rdOf (w : Word) : RegIx := w.extractLsb' 11 5
/-- Bits 10:6. -/
def shamtOf (w : Word) : BitVec 5 := w.extractLsb' 6 5
/-- Bits 5:0. -/
def functOf (w : Word) : BitVec 6 := w.extractLsb' 0 6
/-- Bits 15:0. -/
def imm16Of (w : Word) : Imm16 := w.extractLsb' 0 16
/-- Bits 25:0. -/
def target26Of (w : Word) : Target26 := w.extractLsb' 0 26

/-! ### Decoding -/

/-- Why a word is no instruction: the field that selects nothing in its map (R320). -/
inductive Reject where
  | primary (opcode : BitVec 6)   -- no row of the primary map (R311)
  | special (funct : BitVec 6)    -- no row of the SPECIAL map (R312)
  | regimm (rt : RegIx)           -- no row of the REGIMM map (R313)
  | cop1 (fmt : RegIx)            -- no row of the COP1 map (R314)
  | notFourBytes                  -- not the bytes of one word (R300)
  deriving DecidableEq, Repr

/-- The SPECIAL function map (R312). -/
def decodeSpecial (w : Word) : Except Reject Instr :=
  match (functOf w).toNat with
  | 0x00 => .ok (.sll (rdOf w) (rtOf w) (shamtOf w).toNat)
  | 0x02 => .ok (.srl (rdOf w) (rtOf w) (shamtOf w).toNat)
  | 0x03 => .ok (.sra (rdOf w) (rtOf w) (shamtOf w).toNat)
  | 0x04 => .ok (.sllv (rdOf w) (rtOf w) (rsOf w))
  | 0x06 => .ok (.srlv (rdOf w) (rtOf w) (rsOf w))
  | 0x07 => .ok (.srav (rdOf w) (rtOf w) (rsOf w))
  | 0x08 => .ok (.jr (rsOf w))
  | 0x09 => .ok (.jalr (rdOf w) (rsOf w))
  | 0x0c => .ok .syscall
  | 0x0d => .ok .brk
  | 0x10 => .ok (.mfhi (rdOf w))
  | 0x11 => .ok (.mthi (rsOf w))
  | 0x12 => .ok (.mflo (rdOf w))
  | 0x13 => .ok (.mtlo (rsOf w))
  | 0x18 => .ok (.mult (rsOf w) (rtOf w))
  | 0x19 => .ok (.multu (rsOf w) (rtOf w))
  | 0x1a => .ok (.div (rsOf w) (rtOf w))
  | 0x1b => .ok (.divu (rsOf w) (rtOf w))
  | 0x20 => .ok (.add (rdOf w) (rsOf w) (rtOf w))
  | 0x21 => .ok (.addu (rdOf w) (rsOf w) (rtOf w))
  | 0x22 => .ok (.sub (rdOf w) (rsOf w) (rtOf w))
  | 0x23 => .ok (.subu (rdOf w) (rsOf w) (rtOf w))
  | 0x24 => .ok (.and (rdOf w) (rsOf w) (rtOf w))
  | 0x25 => .ok (.or (rdOf w) (rsOf w) (rtOf w))
  | 0x26 => .ok (.xor (rdOf w) (rsOf w) (rtOf w))
  | 0x27 => .ok (.nor (rdOf w) (rsOf w) (rtOf w))
  | 0x2a => .ok (.slt (rdOf w) (rsOf w) (rtOf w))
  | 0x2b => .ok (.sltu (rdOf w) (rsOf w) (rtOf w))
  | _ => .error (.special (functOf w))

/-- The REGIMM map (R313). -/
def decodeRegimm (w : Word) : Except Reject Instr :=
  match (rtOf w).toNat with
  | 0x00 => .ok (.bltz (rsOf w) (imm16Of w))
  | 0x01 => .ok (.bgez (rsOf w) (imm16Of w))
  | 0x10 => .ok (.bltzal (rsOf w) (imm16Of w))
  | 0x11 => .ok (.bgezal (rsOf w) (imm16Of w))
  | _ => .error (.regimm (rtOf w))

/-- The COP1 map (R314). -/
def decodeCop1 (w : Word) : Except Reject Instr :=
  match (rsOf w).toNat with
  | 0x00 => .ok (.mfc1 (rtOf w) (rdOf w))
  | 0x04 => .ok (.mtc1 (rtOf w) (rdOf w))
  | _ => .error (.cop1 (rsOf w))

/-- The primary opcode map (R310, R311). No other field is examined (R322). -/
def decode (w : Word) : Except Reject Instr :=
  match (opcodeOf w).toNat with
  | 0x00 => decodeSpecial w
  | 0x01 => decodeRegimm w
  | 0x02 => .ok (.j (target26Of w))
  | 0x03 => .ok (.jal (target26Of w))
  | 0x04 => .ok (.beq (rsOf w) (rtOf w) (imm16Of w))
  | 0x05 => .ok (.bne (rsOf w) (rtOf w) (imm16Of w))
  | 0x06 => .ok (.blez (rsOf w) (imm16Of w))
  | 0x07 => .ok (.bgtz (rsOf w) (imm16Of w))
  | 0x08 => .ok (.addi (rtOf w) (rsOf w) (imm16Of w))
  | 0x09 => .ok (.addiu (rtOf w) (rsOf w) (imm16Of w))
  | 0x0a => .ok (.slti (rtOf w) (rsOf w) (imm16Of w))
  | 0x0b => .ok (.sltiu (rtOf w) (rsOf w) (imm16Of w))
  | 0x0c => .ok (.andi (rtOf w) (rsOf w) (imm16Of w))
  | 0x0d => .ok (.ori (rtOf w) (rsOf w) (imm16Of w))
  | 0x0e => .ok (.xori (rtOf w) (rsOf w) (imm16Of w))
  | 0x0f => .ok (.lui (rtOf w) (imm16Of w))
  | 0x11 => decodeCop1 w
  | 0x20 => .ok (.lb (rtOf w) (imm16Of w) (rsOf w))
  | 0x21 => .ok (.lh (rtOf w) (imm16Of w) (rsOf w))
  | 0x22 => .ok (.lwl (rtOf w) (imm16Of w) (rsOf w))
  | 0x23 => .ok (.lw (rtOf w) (imm16Of w) (rsOf w))
  | 0x24 => .ok (.lbu (rtOf w) (imm16Of w) (rsOf w))
  | 0x25 => .ok (.lhu (rtOf w) (imm16Of w) (rsOf w))
  | 0x26 => .ok (.lwr (rtOf w) (imm16Of w) (rsOf w))
  | 0x28 => .ok (.sb (rtOf w) (imm16Of w) (rsOf w))
  | 0x29 => .ok (.sh (rtOf w) (imm16Of w) (rsOf w))
  | 0x2a => .ok (.swl (rtOf w) (imm16Of w) (rsOf w))
  | 0x2b => .ok (.sw (rtOf w) (imm16Of w) (rsOf w))
  | 0x2e => .ok (.swr (rtOf w) (imm16Of w) (rsOf w))
  | 0x31 => .ok (.lwc1 (rtOf w) (imm16Of w) (rsOf w))
  | 0x39 => .ok (.swc1 (rtOf w) (imm16Of w) (rsOf w))
  | _ => .error (.primary (opcodeOf w))

/-- The word whose bytes, from the lowest address up, are the arguments: big-endian (R209). -/
def wordOfBytes (b0 b1 b2 b3 : Byte) : Word := b0 ++ b1 ++ b2 ++ b3

/-- The decoder on bytes as they lie in memory: one word is four bytes (R209, R300). -/
def decodeBytes : List Byte → Except Reject Instr
  | [b0, b1, b2, b3] => decode (wordOfBytes b0 b1 b2 b3)
  | _ => .error .notFourBytes

/-- The four bytes of a word in memory order (R208). -/
def bytesOfWord (w : Word) : List Byte :=
  [w.extractLsb' 24 8, w.extractLsb' 16 8, w.extractLsb' 8 8, w.extractLsb' 0 8]

/-- The instruction word that the table's numbering gives: bit 0 least significant, bits from
`nbits` up zero. -/
def tableWord (nbits w : Nat) : Word := BitVec.ofNat 32 (w % 2 ^ nbits)

/-- The host's question: what the decoder reads from the table word, laid out in memory order. -/
def decodeTableWord (nbits w : Nat) : Option Instr :=
  match decodeBytes (bytesOfWord (tableWord nbits w)) with
  | .ok i => some i
  | .error _ => none

/-! ### Encoding -/

/-- R-format (R301). -/
def rFormat (opcode : BitVec 6) (rs rt rd shamt : BitVec 5) (funct : BitVec 6) : Word :=
  opcode ++ rs ++ rt ++ rd ++ shamt ++ funct

/-- I-format (R301). -/
def iFormat (opcode : BitVec 6) (rs rt : BitVec 5) (imm : Imm16) : Word := opcode ++ rs ++ rt ++ imm

/-- J-format (R301). -/
def jFormat (opcode : BitVec 6) (target : Target26) : Word := opcode ++ target

/-- A SPECIAL word (opcode 0). -/
def special (rs rt rd shamt : BitVec 5) (funct : BitVec 6) : Word := rFormat 0x00#6 rs rt rd shamt funct

/-- The word of an instruction: the fields it uses from its operands, the fields it does not use
zero (R310 to R314). -/
def encode : Instr → Word
  | .add rd rs rt => special rs rt rd 0 0x20
  | .addu rd rs rt => special rs rt rd 0 0x21
  | .sub rd rs rt => special rs rt rd 0 0x22
  | .subu rd rs rt => special rs rt rd 0 0x23
  | .and rd rs rt => special rs rt rd 0 0x24
  | .or rd rs rt => special rs rt rd 0 0x25
  | .xor rd rs rt => special rs rt rd 0 0x26
  | .nor rd rs rt => special rs rt rd 0 0x27
  | .slt rd rs rt => special rs rt rd 0 0x2a
  | .sltu rd rs rt => special rs rt rd 0 0x2b
  | .sll rd rt shamt => special 0 rt rd (BitVec.ofNat 5 shamt) 0x00
  | .srl rd rt shamt => special 0 rt rd (BitVec.ofNat 5 shamt) 0x02
  | .sra rd rt shamt => special 0 rt rd (BitVec.ofNat 5 shamt) 0x03
  | .sllv rd rt rs => special rs rt rd 0 0x04
  | .srlv rd rt rs => special rs rt rd 0 0x06
  | .srav rd rt rs => special rs rt rd 0 0x07
  | .addi rt rs imm => iFormat 0x08 rs rt imm
  | .addiu rt rs imm => iFormat 0x09 rs rt imm
  | .slti rt rs imm => iFormat 0x0a rs rt imm
  | .sltiu rt rs imm => iFormat 0x0b rs rt imm
  | .andi rt rs imm => iFormat 0x0c rs rt imm
  | .ori rt rs imm => iFormat 0x0d rs rt imm
  | .xori rt rs imm => iFormat 0x0e rs rt imm
  | .lui rt imm => iFormat 0x0f 0 rt imm
  | .mult rs rt => special rs rt 0 0 0x18
  | .multu rs rt => special rs rt 0 0 0x19
  | .div rs rt => special rs rt 0 0 0x1a
  | .divu rs rt => special rs rt 0 0 0x1b
  | .mfhi rd => special 0 0 rd 0 0x10
  | .mflo rd => special 0 0 rd 0 0x12
  | .mthi rs => special rs 0 0 0 0x11
  | .mtlo rs => special rs 0 0 0 0x13
  | .beq rs rt offset => iFormat 0x04 rs rt offset
  | .bne rs rt offset => iFormat 0x05 rs rt offset
  | .blez rs offset => iFormat 0x06 rs 0 offset
  | .bgtz rs offset => iFormat 0x07 rs 0 offset
  | .bltz rs offset => iFormat 0x01 rs 0x00 offset
  | .bgez rs offset => iFormat 0x01 rs 0x01 offset
  | .bltzal rs offset => iFormat 0x01 rs 0x10 offset
  | .bgezal rs offset => iFormat 0x01 rs 0x11 offset
  | .j target => jFormat 0x02 target
  | .jal target => jFormat 0x03 target
  | .jr rs => special rs 0 0 0 0x08
  | .jalr rd rs => special rs 0 rd 0 0x09
  | .lb rt offset rs => iFormat 0x20 rs rt offset
  | .lbu rt offset rs => iFormat 0x24 rs rt offset
  | .lh rt offset rs => iFormat 0x21 rs rt offset
  | .lhu rt offset rs => iFormat 0x25 rs rt offset
  | .lw rt offset rs => iFormat 0x23 rs rt offset
  | .lwc1 ft offset rs => iFormat 0x31 rs ft offset
  | .lwl rt offset rs => iFormat 0x22 rs rt offset
  | .lwr rt offset rs => iFormat 0x26 rs rt offset
  | .sb rt offset rs => iFormat 0x28 rs rt offset
  | .sh rt offset rs => iFormat 0x29 rs rt offset
  | .sw rt offset rs => iFormat 0x2b rs rt offset
  | .swc1 ft offset rs => iFormat 0x39 rs ft offset
  | .swl rt offset rs => iFormat 0x2a rs rt offset
  | .swr rt offset rs => iFormat 0x2e rs rt offset
  | .syscall => special 0 0 0 0 0x0c
  | .brk => special 0 0 0 0 0x0d
  | .mfc1 rt fs => rFormat 0x11 0x00 rt fs 0 0
  | .mtc1 rt fs => rFormat 0x11 0x04 rt fs 0 0

end Sys2Proof
end

