-- ==== Sys2Proof/Machine/State.lean ====
section
/-! DEFINITION. Everything the spec gives the machine to hold (10_state.md, rules R100 to R127), the
outcomes other than a next state, the launch state and the state after reset (R140). -/

namespace Sys2Proof

/-- All registers zero. -/
def RegFile.zero : RegFile := { vals := Vector.replicate 32 0#32 }

/-- Slot 0 forced to zero (R102, R910 item 3). -/
def RegFile.forceR0 (f : RegFile) : RegFile := { vals := f.vals.set 0 0#32 }

end Sys2Proof

namespace Sys2Proof.Machine

/-! ### The control record (R120) -/

/-- What a record is: an instruction, or one of the three records that are none (R120). -/
inductive Op where
  | instr (i : Instr)
  | illegal
  | fault
  | bubble
  deriving DecidableEq, Repr

/-- Destination: at most one class per record (R120). -/
inductive Dst where
  | none
  | gpr (i : RegIx)
  | fpr (i : RegIx)
  | hilo (hiEn loEn : Bool)
  deriving DecidableEq, Repr

/-- The load and store kinds of 44_loadstore.md. -/
inductive MemKind where
  | lb | lbu | lh | lhu | lw | lwc1 | lwl | lwr
  | sb | sh | sw | swc1 | swl | swr
  deriving DecidableEq, Repr

/-- The model faults of R802, with the information R801 records. -/
inductive ModelFault where
  | divOverflow (insPC : Word)
  | misaligned (addr : Word)
  | memUnmapped (addr : Word)
  deriving DecidableEq, Repr

/-- The one reason to refuse (R806). -/
inductive RefuseReason where
  | delaySlotControl
  deriving DecidableEq, Repr

/-- A mark on a record, taken at Writeback (R15, R404). -/
inductive Exc where
  | fault (f : ModelFault)
  | refuse (r : RefuseReason)
  deriving DecidableEq, Repr

/-- The control record (R120). Its fields `rs`, `rt`, `rd`, `shamt`, `imm16` and `target26` are
fields of `ins`, so they are not stored again: they are the views of Machine/Operands.lean. -/
structure Record where
  op        : Op
  ins       : Word
  insPC     : Word
  vrs       : Word
  vrt       : Word
  vf        : Word
  vhl       : Word
  dst       : Dst
  mem       : Option MemKind
  isCT      : Bool
  bd        : Bool
  isSyscall : Bool
  isIllegal : Bool
  exc       : Option Exc
  resLo     : Word
  resHi     : Word
  addr      : Word
  btaken    : Bool
  btgt      : Word
  loadVal   : Word
  deriving DecidableEq, Repr

/-- The bubble (R121); the fields R121 leaves open are zero (R120: they are read by no rule). -/
def Record.bubble : Record where
  op := .bubble
  ins := 0#32
  insPC := 0#32
  vrs := 0#32
  vrt := 0#32
  vf := 0#32
  vhl := 0#32
  dst := .none
  mem := none
  isCT := false
  bd := false
  isSyscall := false
  isIllegal := false
  exc := none
  resLo := 0#32
  resHi := 0#32
  addr := 0#32
  btaken := false
  btgt := 0#32
  loadVal := 0#32

/-- The fetch-to-decode latch IFID (R122). -/
structure FetchLatch where
  valid  : Bool
  ins    : Word
  insPC  : Word
  ffault : Option ModelFault
  deriving DecidableEq, Repr

/-- No instruction is waiting (R122). -/
def FetchLatch.empty : FetchLatch where
  valid := false
  ins := 0#32
  insPC := 0#32
  ffault := none

/-- The run status (R119). -/
inductive Status where
  | running
  | exited
  | halted (record : Record)
  | faulted (f : ModelFault)
  | refused (r : RefuseReason)
  | stopped
  deriving DecidableEq, Repr

/-- Only `Running` takes further cycles (R119). -/
def Status.isRunning : Status → Bool
  | .running => true
  | .exited | .halted _ | .faulted _ | .refused _ | .stopped => false

/-! ### The state (R100) -/

structure State where
  /-- the committed general registers (R101) -/
  gpr          : RegFile
  /-- the bypass copy (R104) -/
  byp          : RegFile
  /-- the floating-point registers (R108) -/
  fpr          : RegFile
  /-- (R109) -/
  hi           : Word
  /-- (R109) -/
  lo           : Word
  /-- the address the fetch unit fetches next (R110) -/
  pc           : Word
  /-- the write-flag vector (R112) -/
  wflag        : Vector Bool 32
  /-- `decoder_stall` (R113) -/
  decoderStall : Nat
  /-- `branch_stall` (R114) -/
  branchStall  : Bool
  /-- `syscall_stall` (R115) -/
  syscallStall : Bool
  /-- `bd_pending` (R116) -/
  bdPending    : Bool
  /-- `last_btaken` (R117) -/
  lastBtaken   : Bool
  /-- `last_bd` (R117) -/
  lastBd       : Bool
  /-- `last_btgt` (R117) -/
  lastBtgt     : Word
  /-- the fetch counter (R118) -/
  nfetched     : Nat
  /-- IFID (R122) -/
  ifid         : FetchLatch
  /-- IDEX (R123) -/
  idex         : Record
  /-- EXMEM (R123) -/
  exmem        : Record
  /-- MEMWB (R123) -/
  memwb        : Record
  /-- (R119) -/
  status       : Status
  /-- the backing store (R200) -/
  mem          : Memory
  /-- the emulated operating-system state (R127) -/
  os           : OsState
  /-- the OPEN parameters (R9), constant -/
  params       : Params
  /-- the model's own input: answers the emulator gives to the next traps, oldest first (R812) -/
  sysReplies   : List SysReply
  /-- the model's own counter of free values drawn (R432, FPR_HAZARD_MODE = draw) -/
  draws        : Nat
  deriving DecidableEq, Repr

/-! ### Outcomes other than a next state -/

/-- Why a step gives no next state. -/
inductive Fault where
  /-- Raised by `step` and `exec` in a state whose status is terminal: no further cycle runs (R119,
  R403, U16). Safe: the machine itself goes no further. -/
  | runEnded
  deriving DecidableEq, Repr

/-- Why an instruction has no meaning. -/
inductive Refusal where
  /-- Raised by an arm of `exec` whose instruction has no meaning yet; no arm does. Safe. -/
  | notModelled (mnemonic : String)
  deriving DecidableEq, Repr

/-! ### Launch and reset (R140, R900, R901) -/

/-- Every write flag clear (R112). -/
def clearFlags : Vector Bool 32 := Vector.replicate 32 false

/-- The launch parameters of R140 and the parameters of R9. They are arguments of a launch, with no
default (R901). -/
structure Launch where
  gpr        : RegFile
  fpr        : RegFile
  hi         : Word
  lo         : Word
  entryPC    : Word
  mem        : Memory
  os         : OsState
  params     : Params
  sysReplies : List SysReply
  deriving DecidableEq, Repr

/-- The one launch that `State.reset` is. DESIGN CHOICES (log entries 1, 2, 4, 5), unsafe: the spec
leaves every one of these values to the launch (R140, R901), and the entry point is the one the spec's
own test programs are launched with. -/
def Launch.chosen : Launch where
  gpr := .zero
  fpr := .zero
  hi := 0#32
  lo := 0#32
  entryPC := 0x00400000#32
  mem := { cells := [] }
  os := { bytes := [] }
  params := {}
  sysReplies := []

/-- The state a launch starts in, before cycle 1 (R140). -/
def State.launch (l : Launch) : State where
  gpr := l.gpr.forceR0
  byp := l.gpr.forceR0
  fpr := l.fpr
  hi := l.hi
  lo := l.lo
  pc := l.entryPC
  wflag := clearFlags
  decoderStall := 0
  branchStall := false
  syscallStall := false
  bdPending := false
  lastBtaken := false
  lastBd := false
  lastBtgt := 0#32
  nfetched := 0
  ifid := .empty
  idex := .bubble
  exmem := .bubble
  memwb := .bubble
  status := .running
  mem := l.mem
  os := l.os
  params := l.params
  sysReplies := l.sysReplies
  draws := 0

/-- The machine right after reset: the chosen launch, before cycle 1. -/
def State.reset : State := State.launch Launch.chosen

end Sys2Proof.Machine
end

