-- ==== Sys2Proof/Machine/Ops.lean ====
section
/-! DEFINITION. The shared operations over registers and memory (R101 to R109, R200 to R213), fetching
(R481, R482), the commits and marks of the stages, and TAKING A TRAP with the return from it in one
operation (R810 to R814). -/

namespace Sys2Proof

/-! ### Register files -/

/-- A general register: register 0 reads as zero (R102). -/
def RegFile.read (f : RegFile) (i : RegIx) : Word := if i = 0#5 then 0#32 else f.vals[i.toNat]

/-- A write to a general register: one to register 0 is discarded (R102). -/
def RegFile.write (f : RegFile) (i : RegIx) (v : Word) : RegFile :=
  if i = 0#5 then f else { vals := f.vals.set i.toNat v }

/-- Several writes, in order: what the emulator wrote (R812); one to register 0 is discarded (D17). -/
def RegFile.writeAll (f : RegFile) (ws : List (RegIx × Word)) : RegFile :=
  ws.foldl (fun f w => f.write w.1 w.2) f

/-- A floating-point register; none is hard-wired (R108). -/
def RegFile.readF (f : RegFile) (i : RegIx) : Word := f.vals[i.toNat]

/-- A write to a floating-point register (R108). -/
def RegFile.writeF (f : RegFile) (i : RegIx) (v : Word) : RegFile := { vals := f.vals.set i.toNat v }

/-! ### Memory -/

/-- The byte listed for a key, or what an unlisted one reads as (R207, log entry 2). -/
def readCell : List Host.Cell → Nat → Byte
  | [], _ => Config.unlistedByte
  | (k, b) :: rest, a => if k = a then b else readCell rest a

/-- A cell in front of a list, unless it says what an unlisted address reads as. -/
def consCell (a : Nat) (b : Byte) (rest : List Host.Cell) : List Host.Cell :=
  if b = Config.unlistedByte then rest else (a, b) :: rest

/-- Writing one byte into a sorted list; the canonical form is kept. -/
def writeCell : List Host.Cell → Nat → Byte → List Host.Cell
  | [], a, b => consCell a b []
  | (k, c) :: rest, a, b =>
    if a < k then consCell a b ((k, c) :: rest)
    else if a = k then consCell a b rest
    else (k, c) :: writeCell rest a b

/-- Canonical from key `lo` up: addresses rising and below 2^32, no cell at its unlisted value. -/
def cellsWf (lo : Nat) : List Host.Cell → Bool
  | [] => true
  | (k, b) :: rest =>
    decide (lo ≤ k) && decide (k < 2 ^ 32) && decide (b ≠ Config.unlistedByte) && cellsWf (k + 1) rest

/-- Memory is in its canonical form. -/
def Memory.wf (m : Memory) : Bool := cellsWf 0 m.cells

/-- The byte at an address (R14, R206). -/
def Memory.read (m : Memory) (a : Word) : Byte := readCell m.cells a.toNat

/-- One byte stored (R14, R206). -/
def Memory.write (m : Memory) (a : Word) (b : Byte) : Memory := { cells := writeCell m.cells a.toNat b }

/-- `MemRead(a, 2)`: the byte at `a` is the high byte (R14, R204, R208). -/
def Memory.read16 (m : Memory) (a : Word) : BitVec 16 := m.read a ++ m.read (a + 1#32)

/-- `MemRead(a, 4)`: the byte at `a` is the most significant (R14, R205, R208). -/
def Memory.read32 (m : Memory) (a : Word) : Word :=
  m.read a ++ m.read (a + 1#32) ++ m.read (a + 2#32) ++ m.read (a + 3#32)

/-- `MemWrite(a, 2, v)` (R14, R204, R208). -/
def Memory.write16 (m : Memory) (a : Word) (v : BitVec 16) : Memory :=
  (m.write a (v.extractLsb' 8 8)).write (a + 1#32) (v.extractLsb' 0 8)

/-- `MemWrite(a, 4, v)` (R14, R205, R208). -/
def Memory.write32 (m : Memory) (a : Word) (v : Word) : Memory :=
  (((m.write a (v.extractLsb' 24 8)).write (a + 1#32) (v.extractLsb' 16 8)).write (a + 2#32)
    (v.extractLsb' 8 8)).write (a + 3#32) (v.extractLsb' 0 8)

/-- Several bytes stored, in order: what the emulator wrote (R812). -/
def Memory.writeAll (m : Memory) (ws : List (Word × Byte)) : Memory :=
  ws.foldl (fun m w => m.write w.1 w.2) m

/-! #### The collaborator's 8-byte words (R200, R203 to R205): a second view of the same bytes -/

/-- The address of the aligned 8-byte word that holds byte `a` (R201). -/
def doubleBase (a : Word) : Word := a &&& 0xfffffff8#32

/-- `Read(a & ~7)` (R200, R203): byte offset 0 is the most significant. -/
def Memory.readDouble (m : Memory) (a : Word) : BitVec 64 :=
  m.read32 (doubleBase a) ++ m.read32 (doubleBase a + 4#32)

/-- `Write(a & ~7, W)` (R200). -/
def Memory.writeDouble (m : Memory) (a : Word) (w : BitVec 64) : Memory :=
  (m.write32 (doubleBase a) (w.extractLsb' 32 32)).write32 (doubleBase a + 4#32) (w.extractLsb' 0 32)

/-- `k8 = a[2:0]` (R201). -/
def k8 (a : Word) : Nat := (a.extractLsb' 0 3).toNat

/-- `GetByte(a, W)` (R203). -/
def getByte (a : Word) (w : BitVec 64) : Byte := w.extractLsb' (56 - 8 * k8 a) 8

/-- `GetHalfWord(a, W)` (R204). -/
def getHalfWord (a : Word) (w : BitVec 64) : BitVec 16 := w.extractLsb' (48 - 8 * k8 a) 16

/-- `GetWord(a, W)` (R205). -/
def getWord (a : Word) (w : BitVec 64) : Word := w.extractLsb' (32 - 8 * k8 a) 32

/-- W with the n bits from bit `lo` up replaced by v: the overlay of SetByte, SetHalfWord and
SetWord (R203 to R205). -/
def overlay (lo n : Nat) (v : BitVec n) (w : BitVec 64) : BitVec 64 :=
  (w &&& ~~~((BitVec.allOnes n).zeroExtend 64 <<< lo)) ||| (v.zeroExtend 64 <<< lo)

/-- `SetByte(a, W, v)` (R203). -/
def setByte (a : Word) (w : BitVec 64) (v : Byte) : BitVec 64 := overlay (56 - 8 * k8 a) 8 v w

/-- `SetHalfWord(a, W, v)` (R204). -/
def setHalfWord (a : Word) (w : BitVec 64) (v : BitVec 16) : BitVec 64 := overlay (48 - 8 * k8 a) 16 v w

/-- `SetWord(a, W, v)` (R205). -/
def setWord (a : Word) (w : BitVec 64) (v : Word) : BitVec 64 := overlay (32 - 8 * k8 a) 32 v w

/-! ### The mapped set (R211) -/

/-- `MAPPED(a & ~7)` (R211): the aligned 8-byte word of `a` is in one of the regions. -/
def mapped (p : Params) (a : Word) : Bool :=
  p.mapped.any fun r => decide (r.first ≤ a.toNat / 8) && decide (a.toNat / 8 < r.stop)

end Sys2Proof

namespace Sys2Proof.Machine

/-! ### Marks on records (R15, R404) -/

/-- `raise F(info)` (R15). -/
def Record.raise (r : Record) (f : ModelFault) : Record := { r with exc := some (.fault f) }

/-- `refuse(reason)` by Decode: the record keeps no effect (R15, R410, R428). -/
def Record.refuse (r : Record) (reason : RefuseReason) : Record :=
  { r with exc := some (.refuse reason), isCT := false, isSyscall := false, dst := .none, mem := none }

/-- The record is a bubble (R121). -/
def Record.isBubble (r : Record) : Bool := decide (r.op = .bubble)

/-! ### Register and flag updates of the state -/

/-- Execute's early commit: the bypass copy and the write flag (R441). -/
def State.earlyCommit (s : State) (i : RegIx) (v : Word) : State :=
  { s with byp := s.byp.write i v, wflag := s.wflag.set i.toNat true }

/-- Writeback's commit of a general register (R470). -/
def State.commitGpr (s : State) (i : RegIx) (v : Word) : State := { s with gpr := s.gpr.write i v }

/-- Writeback's commit of a floating-point register (R470). -/
def State.commitFpr (s : State) (i : RegIx) (v : Word) : State := { s with fpr := s.fpr.writeF i v }

/-- Writeback's commit of the Hi/Lo halves that are enabled (R470, D41). -/
def State.commitHiLo (s : State) (hiEn loEn : Bool) (h l : Word) : State :=
  { s with hi := if hiEn then h else s.hi, lo := if loEn then l else s.lo }

/-- Memory's deferred load commit into the bypass copy: not to register 0, and not over a younger
value (R456). -/
def State.deferredCommit (s : State) (i : RegIx) (v : Word) : State :=
  if i ≠ 0#5 ∧ s.wflag[i.toNat] = false then { s with byp := s.byp.write i v } else s

/-- The write-flag vector cleared (R112, R440, R813). -/
def State.clearWflag (s : State) : State := { s with wflag := clearFlags }

/-- The run ends, or goes on, with a status (R119). -/
def State.setStatus (s : State) (st : Status) : State := { s with status := st }

/-- The outcome of a control transfer is recorded (R444). -/
def State.recordBranch (s : State) (e : Record) : State :=
  { s with lastBtaken := e.btaken, lastBd := e.bd, lastBtgt := e.btgt }

/-- A taken control transfer redirects the fetch address (R443). -/
def State.redirect (s : State) (e : Record) : State := if e.btaken then { s with pc := e.btgt } else s

/-! ### Fetching an instruction (R481, R482) -/

/-- `fetch(pc)`: the entry for IFID. The alignment is checked before the mapped set (R482, R820). -/
def State.fetchEntry (s : State) : FetchLatch :=
  if s.pc.extractLsb' 0 2 ≠ 0#2 then
    { valid := true, ins := 0#32, insPC := s.pc, ffault := some (.misaligned s.pc) }
  else if mapped s.params s.pc = false then
    { valid := true, ins := 0#32, insPC := s.pc, ffault := some (.memUnmapped s.pc) }
  else { valid := true, ins := s.mem.read32 s.pc, insPC := s.pc, ffault := none }

/-- FETCH_BUDGET is reached (R480, R485). -/
def State.budgetSpent (s : State) : Bool :=
  match s.params.fetchBudget with
  | none => false
  | some n => decide (n ≤ s.nfetched)

/-! ### Taking a trap and resuming (R810 to R814) -/

/-- The emulator's answer to the trap of record `w`: the next scripted answer where the launch gave
one, else the parameter's (R812, log entry 5). -/
def State.sysReply (s : State) (w : Record) : SysReply :=
  match s.sysReplies with
  | r :: _ => r
  | [] => Config.sysHandler { gpr := s.gpr, mem := s.mem, os := s.os, ins := w.ins }

/-- The emulator has run: the registers, the memory bytes and the `os` it left; its write to register
0 is discarded (R812, D17). -/
def State.applyReply (s : State) (r : SysReply) : State :=
  { s with
    gpr := s.gpr.writeAll r.regs
    mem := s.mem.writeAll r.bytes
    os := r.os
    sysReplies := s.sysReplies.tail }

/-- Where fetch resumes after the trap of record `w` (R814). -/
def State.resumePC (s : State) (w : Record) : Word :=
  match s.params.syscallResume with
  | .after => s.pc - 4#32
  | .replay => w.insPC

/-- The return from the trap: fetch resumes, the gate opens, the flags are cleared and the bypass copy
is refreshed (R813, R814). -/
def State.resume (s : State) (w : Record) : State :=
  { s with
    pc := s.resumePC w
    syscallStall := false
    wflag := clearFlags
    byp := s.gpr }

/-- `trap(W)` with the emulator's answer (R810). -/
def State.trapWith (s : State) (w : Record) (r : SysReply) : State :=
  let s' := { s with nfetched := s.nfetched - 1 }.applyReply r
  if r.leaves then s'.setStatus .exited else s'.resume w

/-- TAKING A TRAP: `trap(W)` (R810). Nothing is saved, no mode changes, control goes to no vector
(R816): the emulator runs within this step and fetch resumes (R814). -/
def State.trap (s : State) (w : Record) : State := s.trapWith w (s.sysReply w)

end Sys2Proof.Machine
end

