-- ==== Sys2Proof/Machine/Operands.lean ====
section
/-! DEFINITION. Every operand form: the fields a record carries (R120), the extended immediates (R303,
R304), the branch and jump targets (R305, R306), the shift amounts (R307), the effective address
(R650), and what an instruction tells Decode about its operands (R421). -/

namespace Sys2Proof.Machine

/-! ### The fields of a record: views of its instruction word (R120, R301) -/

/-- (R120) -/
def Record.rs (r : Record) : RegIx := rsOf r.ins
/-- (R120) -/
def Record.rt (r : Record) : RegIx := rtOf r.ins
/-- (R120) -/
def Record.rd (r : Record) : RegIx := rdOf r.ins
/-- (R120) -/
def Record.shamt (r : Record) : BitVec 5 := shamtOf r.ins
/-- (R120) -/
def Record.imm16 (r : Record) : Imm16 := imm16Of r.ins
/-- (R120) -/
def Record.target26 (r : Record) : Target26 := target26Of r.ins

/-! ### Immediates and targets -/

/-- `simm = sext_16(imm16)` (R303). -/
def simm (imm : Imm16) : Word := imm.signExtend 32

/-- `zimm = zext_16(imm16)` (R304). -/
def zimm (imm : Imm16) : Word := imm.zeroExtend 32

/-- `luimm = imm16 ++ 0x0000` (R304). -/
def luimm (imm : Imm16) : Word := imm ++ 0#16

/-- A conditional branch's target, `insPC + 4#32 + (sext_16(imm16) << 2)` (R305, R604). -/
def branchTarget (insPC : Word) (offset : Imm16) : Word := insPC + 4#32 + (simm offset <<< 2)

/-- A jump's target, `(insPC + 4)[31:28] ++ target26 ++ 0b00` (R306, R604). -/
def jumpTarget (insPC : Word) (target : Target26) : Word :=
  (insPC + 4#32).extractLsb' 28 4 ++ target ++ 0#2

/-- The link value, `insPC + 8` (R603). -/
def linkValue (insPC : Word) : Word := insPC + 8#32

/-- A variable shift's amount, `x[rs][4:0]` (R307). -/
def shiftAmount (v : Word) : Nat := (v.extractLsb' 0 5).toNat

/-- The effective address, `x[rs] + sext_16(imm16)` (R650). -/
def effectiveAddress (base : Word) (offset : Imm16) : Word := base + simm offset

/-! ### What Decode knows of an instruction (R421) -/

/-- A member of a source set (R421). -/
inductive Src where
  | g (i : RegIx)
  | f (i : RegIx)
  | hilo
  deriving DecidableEq, Repr

/-- Which half a Hi/Lo move reads (R430). -/
inductive HiLoHalf where
  | hi
  | lo
  deriving DecidableEq, Repr

/-- An instruction as the stages see it: its row of the table of R421, the registers Decode reads for
it (R430), and its bound operation handler (R440, R442), which fills the result fields of the record
from the record's own fields and may raise. `rs` and `rt` stay 0 where the instruction has no such
operand: the value read is then used by no rule (R120). -/
structure Handler where
  sources   : List Src := []
  dst       : Dst := .none
  mem       : Option MemKind := none
  isCT      : Bool := false
  isSyscall : Bool := false
  isIllegal : Bool := false
  rs        : RegIx := 0#5
  rt        : RegIx := 0#5
  readsFpr  : Option RegIx := none
  readsHiLo : Option HiLoHalf := none
  operate   : Record → Record := fun r => r

/-- The row of an illegal encoding: no source, no destination, no effect (R412, R421). -/
def illegalHandler : Handler := { isIllegal := true }

/-- `vhl` (R430). -/
def readHiLo (half : Option HiLoHalf) (s : State) : Word :=
  match half with
  | none => 0#32
  | some .hi => s.hi
  | some .lo => s.lo

/-- A record that will write floating-point register `j` only at Writeback, and not as a load: an
`mtc1` of it (R432). -/
def Record.isMtc1To (r : Record) (j : RegIx) : Bool := decide (r.dst = .fpr j) && r.mem.isNone

/-- The FPR hazard window: an `mtc1` of `j` in Execute, or an `mtc1` or `lwc1` of `j` in Memory (R432). -/
def fprWindow (e m : Record) (j : RegIx) : Bool := e.isMtc1To j || decide (m.dst = .fpr j)

/-- A read of a floating-point register is a free value: FPR_HAZARD_MODE = draw, in the window (R432). -/
def drawsFpr (h : Handler) (e m : Record) (s : State) : Bool :=
  match h.readsFpr with
  | none => false
  | some j => decide (s.params.fprHazard = .draw) && fprWindow e m j

/-- `vf` (R430, R432). -/
def readFprOperand (h : Handler) (e m : Record) (s : State) : Word :=
  match h.readsFpr with
  | none => 0#32
  | some j => if drawsFpr h e m s then Config.freeFprRead s.draws else s.fpr.readF j

/-- The record Decode builds: the entry's word and address, the operand values read now, and the row
of R421 (R412, R430). The fields Execute and Memory fill are still zero. -/
def makeRecord (op : Op) (h : Handler) (d : FetchLatch) (e m : Record) (s : State) : Record where
  op := if h.isIllegal then .illegal else op
  ins := d.ins
  insPC := d.insPC
  vrs := s.byp.read h.rs
  vrt := s.byp.read h.rt
  vf := readFprOperand h e m s
  vhl := readHiLo h.readsHiLo s
  dst := h.dst
  mem := h.mem
  isCT := h.isCT
  bd := s.bdPending
  isSyscall := h.isSyscall
  isIllegal := h.isIllegal
  exc := none
  resLo := 0#32
  resHi := 0#32
  addr := 0#32
  btaken := false
  btgt := 0#32
  loadVal := 0#32

end Sys2Proof.Machine
end

