-- ==== Sys2Proof/Machine/MemOps.lean ====
section
/-! DEFINITION. The memory-operation handlers (R120): what each load kind reads and each store kind
writes at its effective address (R660 to R675), and the checks before the access (R651). -/

namespace Sys2Proof.Machine

/-- The eight loads (R315, R421). -/
def MemKind.isLoad : MemKind → Bool
  | .lb | .lbu | .lh | .lhu | .lw | .lwc1 | .lwl | .lwr => true
  | .sb | .sh | .sw | .swc1 | .swl | .swr => false

/-- The record is a load (R421). -/
def Record.isLoad (r : Record) : Bool :=
  match r.mem with
  | none => false
  | some k => k.isLoad

/-- The record is a store (R424). -/
def Record.isStore (r : Record) : Bool :=
  match r.mem with
  | none => false
  | some k => !k.isLoad

/-! ### Checks (R212, R651) -/

/-- The access lacks the alignment its kind needs (R212, R651). -/
def MemKind.misalignedAt (k : MemKind) (a : Word) : Bool :=
  match k with
  | .lb | .lbu | .sb | .lwl | .lwr | .swl | .swr => false
  | .lh | .lhu | .sh => decide (a.extractLsb' 0 1 ≠ 0#1)
  | .lw | .lwc1 | .sw | .swc1 => decide (a.extractLsb' 0 2 ≠ 0#2)

/-- What the Memory stage raises before the access, alignment first (R450, R651). -/
def accessFault (p : Params) (k : MemKind) (a : Word) : Option ModelFault :=
  if k.misalignedAt a then some (.misaligned a)
  else if mapped p a = false then some (.memUnmapped a)
  else none

/-! ### The aligned word of the partial-word operations (R654) -/

/-- `WA = A & ~3` (R654). -/
def wordBase (a : Word) : Word := a &&& 0xfffffffc#32

/-- `k = A[1:0]` (R654). -/
def byteInWord (a : Word) : Nat := (a.extractLsb' 0 2).toNat

/-! ### Loads -/

/-- (R660) -/
def loadLb (m : Memory) (a : Word) : Word := (m.read a).signExtend 32
/-- (R661) -/
def loadLbu (m : Memory) (a : Word) : Word := (m.read a).zeroExtend 32
/-- (R662) -/
def loadLh (m : Memory) (a : Word) : Word := (m.read16 a).signExtend 32
/-- (R663) -/
def loadLhu (m : Memory) (a : Word) : Word := (m.read16 a).zeroExtend 32
/-- (R664) -/
def loadLw (m : Memory) (a : Word) : Word := m.read32 a
/-- (R665) -/
def loadLwc1 (m : Memory) (a : Word) : Word := m.read32 a

/-- `(W << 8k) | (x[rt] & ((1 << 8k) - 1))`; `old` is x[rt] (R666). -/
def loadLwl (m : Memory) (a old : Word) : Word :=
  let k := byteInWord a
  (m.read32 (wordBase a) <<< (8 * k)) ||| (old &&& ((1#32 <<< (8 * k)) - 1#32))

/-- `(W >>u s) | (x[rt] & ~(0xffffffff >>u s))`, s = 8 * (3 - k) (R667). -/
def loadLwr (m : Memory) (a old : Word) : Word :=
  let s := 8 * (3 - byteInWord a)
  (m.read32 (wordBase a) >>> s) ||| (old &&& ~~~(0xffffffff#32 >>> s))

/-- The value a load produces; a store kind produces none and is never asked (R450). -/
def loadValue (k : MemKind) (m : Memory) (a old : Word) : Word :=
  match k with
  | .lb => loadLb m a
  | .lbu => loadLbu m a
  | .lh => loadLh m a
  | .lhu => loadLhu m a
  | .lw => loadLw m a
  | .lwc1 => loadLwc1 m a
  | .lwl => loadLwl m a old
  | .lwr => loadLwr m a old
  | .sb | .sh | .sw | .swc1 | .swl | .swr => 0#32

/-! ### Stores: the memory after the store of `v` -/

/-- (R670) -/
def storeSb (m : Memory) (a v : Word) : Memory := m.write a (v.extractLsb' 0 8)
/-- (R671) -/
def storeSh (m : Memory) (a v : Word) : Memory := m.write16 a (v.extractLsb' 0 16)
/-- (R672) -/
def storeSw (m : Memory) (a v : Word) : Memory := m.write32 a v
/-- (R673) -/
def storeSwc1 (m : Memory) (a v : Word) : Memory := m.write32 a v

/-- `(W & ~(0xffffffff >>u 8k)) | (x[rt] >>u 8k)` (R674). -/
def mergeSwl (k : Nat) (w v : Word) : Word :=
  (w &&& ~~~(0xffffffff#32 >>> (8 * k))) ||| (v >>> (8 * k))

/-- (R674) -/
def storeSwl (m : Memory) (a v : Word) : Memory :=
  m.write32 (wordBase a) (mergeSwl (byteInWord a) (m.read32 (wordBase a)) v)

/-- `(W & ~(0xffffffff << s)) | (x[rt] << s)`, s = 8 * (3 - k) (R675). -/
def mergeSwr (k : Nat) (w v : Word) : Word :=
  (w &&& ~~~(0xffffffff#32 <<< (8 * (3 - k)))) ||| (v <<< (8 * (3 - k)))

/-- (R675) -/
def storeSwr (m : Memory) (a v : Word) : Memory :=
  m.write32 (wordBase a) (mergeSwr (byteInWord a) (m.read32 (wordBase a)) v)

/-- The memory after a store of kind `k`: `v` is `vrt`, `f` is `vf` (R453, R653). A load kind leaves
memory as it is. -/
def storeMem (k : MemKind) (m : Memory) (a v f : Word) : Memory :=
  match k with
  | .sb => storeSb m a v
  | .sh => storeSh m a v
  | .sw => storeSw m a v
  | .swc1 => storeSwc1 m a f
  | .swl => storeSwl m a v
  | .swr => storeSwr m a v
  | .lb | .lbu | .lh | .lhu | .lw | .lwc1 | .lwl | .lwr => m

end Sys2Proof.Machine
end

