-- ==== Sys2Proof/Machine/Stages.lean ====
section
/-! DEFINITION. The stages of the pipeline as operations on a record and the state: hazard detection
(R420 to R427), issue by Decode (R412, R428 to R430), Execute (R440), Memory (R450), Writeback (R470),
and the passage of ONE instruction through all four of them, which is what `exec` runs. The cycle of
Machine/Pipeline.lean is made of these same operations. -/

namespace Sys2Proof.Machine

/-! ### Hazard detection (R420 to R427) -/

/-- A destination matches a member of a source set: by class and index, register 0 never (R425). -/
def Dst.hits (d : Dst) : Src → Bool
  | .g i => decide (d = .gpr i) && decide (i ≠ 0#5)
  | .f i => decide (d = .fpr i)
  | .hilo =>
    match d with
    | .hilo _ _ => true
    | .none | .gpr _ | .fpr _ => false

/-- A destination matches some member of a source set (R425). -/
def Dst.hitsAny (d : Dst) (sources : List Src) : Bool := sources.any d.hits

/-- The load-use rule (R422). -/
def loadUseHazard (h : Handler) (e : Record) : Nat :=
  if e.isLoad && e.dst.hitsAny h.sources then Config.loadUseStall else 0

/-- The Hi/Lo rule: only `mfhi` and `mflo` have `hilo` as a source (R421, R423). -/
def hiloHazard (h : Handler) (e m w : Record) : Nat :=
  if decide (Src.hilo ∈ h.sources) = false then 0
  else if e.dst.hits .hilo then Config.hiloStallE
  else if m.dst.hits .hilo then Config.hiloStallM
  else if w.dst.hits .hilo then Config.hiloStallW
  else 0

/-- The instruction is a store (R424). -/
def Handler.isStore (h : Handler) : Bool :=
  match h.mem with
  | none => false
  | some k => !k.isLoad

/-- The store rule (R424). A store's sources are registers, so a Hi/Lo destination never matches. -/
def storeHazard (h : Handler) (e m w : Record) : Nat :=
  if h.isStore = false then 0
  else if e.dst.hitsAny h.sources then Config.storeStallE
  else if m.dst.hitsAny h.sources then Config.storeStallM
  else if w.dst.hitsAny h.sources then Config.storeStallW
  else 0

/-- `hazard(r, E, M, W)`: the largest count required (R427). -/
def hazard (h : Handler) (e m w : Record) : Nat :=
  max (loadUseHazard h e) (max (hiloHazard h e m w) (storeHazard h e m w))

/-! ### Decode: issuing one instruction (R410, R412, R428, R429) -/

/-- The counter of free values moves on when one is drawn (R432). -/
def State.countDraw (s : State) (drawn : Bool) : State :=
  if drawn then { s with draws := s.draws + 1 } else s

/-- The record as Decode sends it on: refused where a control transfer, a syscall or a trapping break
stands in a delay slot (R428). -/
def issueRecord (op : Op) (h : Handler) (d : FetchLatch) (e m : Record) (s : State) : Record :=
  let r := makeRecord op h d e m s
  if s.bdPending && (h.isCT || h.isSyscall) then r.refuse .delaySlotControl else r

/-- The delay-slot tracker and the syscall gate after Decode sent record `r` on (R428, R429). -/
def State.afterIssue (s : State) (r : Record) : State :=
  { s with bdPending := r.isCT, syscallStall := s.syscallStall || r.isSyscall }

/-- Decode's effect on the state when it issues (R428, R429, R432). -/
def issueState (op : Op) (h : Handler) (d : FetchLatch) (e m : Record) (s : State) : State :=
  (s.countDraw (drawsFpr h e m s)).afterIssue (issueRecord op h d e m s)

/-! ### Execute (R440) -/

/-- Execute skips a bubble, a syscall, an illegal record and a marked one (R440). -/
def Record.skipsExecute (e : Record) : Bool :=
  e.isBubble || e.isSyscall || e.isIllegal || e.exc.isSome

/-- The record Execute leaves, `operate` its bound operation handler (R440, R442). -/
def exRecord (operate : Record → Record) (e : Record) : Record :=
  if e.skipsExecute then e else operate e

/-- The early commit of a record that is not a load (R441). -/
def exCommit (e : Record) (s : State) : State :=
  match e.dst with
  | .gpr i => if e.isLoad then s else s.earlyCommit i e.resLo
  | .none | .fpr _ | .hilo _ _ => s

/-- A control transfer is recorded, and a taken one redirects fetch (R443, R444). -/
def exBranch (e : Record) (s : State) : State :=
  if e.isCT then (s.recordBranch e).redirect e else s

/-- Execute's effect on the state: the flags are cleared first; a record that raised has no further
effect (R15, R440). -/
def exState (operate : Record → Record) (e : Record) (s : State) : State :=
  let s' := s.clearWflag
  let e' := operate e
  if e.skipsExecute || e'.exc.isSome then s' else exBranch e' (exCommit e' s')

/-! ### Memory (R450) -/

/-- The record Memory leaves (R450). -/
def memRecord (m : Record) (s : State) : Record :=
  match m.mem with
  | none => m
  | some k =>
    if m.exc.isSome then m
    else
      match accessFault s.params k m.addr with
      | some f => m.raise f
      | none => if k.isLoad then { m with loadVal := loadValue k s.mem m.addr m.vrt } else m

/-- The access of an unmarked record that passed the checks (R450, R456). -/
def memAccess (k : MemKind) (m : Record) (s : State) : State :=
  if k.isLoad then
    match m.dst with
    | .gpr i => s.deferredCommit i (loadValue k s.mem m.addr m.vrt)
    | .none | .fpr _ | .hilo _ _ => s
  else { s with mem := storeMem k s.mem m.addr m.vrt m.vf }

/-- Memory's effect on the state (R450). -/
def memState (m : Record) (s : State) : State :=
  match m.mem with
  | none => s
  | some k =>
    if m.exc.isSome || (accessFault s.params k m.addr).isSome then s else memAccess k m s

/-! ### Writeback (R470) -/

/-- The value a record commits to a register (R470). -/
def Record.result (w : Record) : Word := if w.isLoad then w.loadVal else w.resLo

/-- The commit to exactly one destination class (R470). -/
def commit (w : Record) (s : State) : State :=
  match w.dst with
  | .gpr i => s.commitGpr i w.result
  | .fpr i => s.commitFpr i w.result
  | .hilo hiEn loEn => s.commitHiLo hiEn loEn w.resHi w.resLo
  | .none => s

/-- `WB_step(W)`, the checks in the order of R470 and R821. Register 0 needs no step of its own: it
reads as zero and no write reaches it (R102). -/
def wbState (w : Record) (s : State) : State :=
  match w.exc with
  | some (.refuse r) => s.setStatus (.refused r)
  | some (.fault f) => s.setStatus (.faulted f)
  | none =>
    if w.isBubble then s
    else if w.isIllegal then s.setStatus (.halted w)
    else if w.isSyscall then s.trap w
    else commit w s

/-! ### Fetch (R480) -/

/-- `IF_step(consumed, ss, bs)` (R480). -/
def ifState (consumed ss bs : Bool) (s : State) : State :=
  if consumed = false then s
  else if ss || bs || s.budgetSpent then { s with ifid := .empty }
  else { s with ifid := s.fetchEntry, pc := s.pc + 4#32, nfetched := s.nfetched + 1 }

/-! ### One instruction through the four stages -/

/-- The record of instruction `i`, waiting in IFID, after Decode, with nothing else in flight. -/
def flowIssued (i : Instr) (h : Handler) (s : State) : Record :=
  issueRecord (.instr i) h s.ifid .bubble .bubble s

/-- The fetch behind a trap: the word after it is fetched in the cycle that decodes the trap and
discarded in the next one; the trap undoes it (R484, R814). Behind any other instruction `exec` fetches
nothing. -/
def trapFetch (bs : Bool) (r : Record) (s : State) : State :=
  if r.isSyscall then { ifState true false bs s with ifid := .empty } else s

/-- The state after Decode; the branch gate has closed and opened again (R429). -/
def flowIssueState (i : Instr) (h : Handler) (s : State) : State :=
  trapFetch s.branchStall (flowIssued i h s)
    { issueState (.instr i) h s.ifid .bubble .bubble s with branchStall := false }

/-- The record after Execute. -/
def flowExecuted (i : Instr) (h : Handler) (s : State) : Record :=
  exRecord h.operate (flowIssued i h s)

/-- The state after Execute; the bubble behind has cleared the flags again (R440). -/
def flowExecuteState (i : Instr) (h : Handler) (s : State) : State :=
  (exState h.operate (flowIssued i h s) (flowIssueState i h s)).clearWflag

/-- The record after Memory. -/
def flowAccessed (i : Instr) (h : Handler) (s : State) : Record :=
  memRecord (flowExecuted i h s) (flowExecuteState i h s)

/-- The state after Memory. -/
def flowMemoryState (i : Instr) (h : Handler) (s : State) : State :=
  memState (flowExecuted i h s) (flowExecuteState i h s)

/-- THE WHOLE EFFECT OF ONE INSTRUCTION: instruction `i` is the one waiting in IFID, it passes Decode,
Execute, Memory and Writeback, and nothing else is in flight (R13: what `x[i]`, `x[i] <- v`, `HI <- v`
and `LO <- v` mean); nothing is fetched, but for the word behind a trap, which the trap discards. Only a
running machine goes on (R119). -/
def runAlone (i : Instr) (h : Handler) (s : State) : Host.Outcome State Fault Refusal :=
  if s.status.isRunning then .next (wbState (flowAccessed i h s) (flowMemoryState i h s))
  else .fault .runEnded

end Sys2Proof.Machine
end

