-- ==== Sys2Proof/Machine/Alu.lean ====
section
/-! DEFINITION. The 24 integer ALU and shift instructions (41_alu.md, R510 to R537). -/

namespace Sys2Proof.Machine

/-- A register-register operation: `x[rd] <- f(x[rs], x[rt])` (R421, R500). -/
def aluRegReg (f : Word → Word → Word) (rd rs rt : RegIx) : Handler where
  sources := [.g rs, .g rt]
  dst := .gpr rd
  rs := rs
  rt := rt
  operate := fun r => { r with resLo := f r.vrs r.vrt }

/-- A shift by an immediate: `x[rd] <- f(x[rt], shamt)` (R421, R500). -/
def shiftByImm (f : Word → Nat → Word) (rd rt : RegIx) (shamt : Nat) : Handler where
  sources := [.g rt]
  dst := .gpr rd
  rt := rt
  operate := fun r => { r with resLo := f r.vrt shamt }

/-- A shift by a register: `x[rd] <- f(x[rt], x[rs][4:0])` (R307, R421, R500). -/
def shiftByReg (f : Word → Nat → Word) (rd rt rs : RegIx) : Handler where
  sources := [.g rs, .g rt]
  dst := .gpr rd
  rs := rs
  rt := rt
  operate := fun r => { r with resLo := f r.vrt (shiftAmount r.vrs) }

/-- A register-immediate operation: `x[rt] <- f(x[rs], imm)` (R421, R500). -/
def aluRegImm (f : Word → Imm16 → Word) (rt rs : RegIx) (imm : Imm16) : Handler where
  sources := [.g rs]
  dst := .gpr rt
  rs := rs
  operate := fun r => { r with resLo := f r.vrs imm }

/-- R510: x[rd] <- x[rs] + x[rt], overflow ignored. -/
def handleAdd (rd rs rt : RegIx) : Handler := aluRegReg (fun a b => a + b) rd rs rt

/-- The whole effect of `add`. -/
def execAdd (rd rs rt : RegIx) (s : State) : Host.Outcome State Fault Refusal :=
  runAlone (.add rd rs rt) (handleAdd rd rs rt) s

/-- R511: x[rd] <- x[rs] + x[rt]. -/
def handleAddu (rd rs rt : RegIx) : Handler := aluRegReg (fun a b => a + b) rd rs rt

/-- The whole effect of `addu`. -/
def execAddu (rd rs rt : RegIx) (s : State) : Host.Outcome State Fault Refusal :=
  runAlone (.addu rd rs rt) (handleAddu rd rs rt) s

/-- R512: x[rd] <- x[rs] - x[rt], overflow ignored. -/
def handleSub (rd rs rt : RegIx) : Handler := aluRegReg (fun a b => a - b) rd rs rt

/-- The whole effect of `sub`. -/
def execSub (rd rs rt : RegIx) (s : State) : Host.Outcome State Fault Refusal :=
  runAlone (.sub rd rs rt) (handleSub rd rs rt) s

/-- R513: x[rd] <- x[rs] - x[rt]. -/
def handleSubu (rd rs rt : RegIx) : Handler := aluRegReg (fun a b => a - b) rd rs rt

/-- The whole effect of `subu`. -/
def execSubu (rd rs rt : RegIx) (s : State) : Host.Outcome State Fault Refusal :=
  runAlone (.subu rd rs rt) (handleSubu rd rs rt) s

/-- R514: x[rd] <- x[rs] & x[rt]. -/
def handleAnd (rd rs rt : RegIx) : Handler := aluRegReg (fun a b => a &&& b) rd rs rt

/-- The whole effect of `and`. -/
def execAnd (rd rs rt : RegIx) (s : State) : Host.Outcome State Fault Refusal :=
  runAlone (.and rd rs rt) (handleAnd rd rs rt) s

/-- R515: x[rd] <- x[rs] | x[rt]. -/
def handleOr (rd rs rt : RegIx) : Handler := aluRegReg (fun a b => a ||| b) rd rs rt

/-- The whole effect of `or`. -/
def execOr (rd rs rt : RegIx) (s : State) : Host.Outcome State Fault Refusal :=
  runAlone (.or rd rs rt) (handleOr rd rs rt) s

/-- R516: x[rd] <- x[rs] ^ x[rt]. -/
def handleXor (rd rs rt : RegIx) : Handler := aluRegReg (fun a b => a ^^^ b) rd rs rt

/-- The whole effect of `xor`. -/
def execXor (rd rs rt : RegIx) (s : State) : Host.Outcome State Fault Refusal :=
  runAlone (.xor rd rs rt) (handleXor rd rs rt) s

/-- R517: x[rd] <- ~(x[rs] | x[rt]). -/
def handleNor (rd rs rt : RegIx) : Handler := aluRegReg (fun a b => ~~~(a ||| b)) rd rs rt

/-- The whole effect of `nor`. -/
def execNor (rd rs rt : RegIx) (s : State) : Host.Outcome State Fault Refusal :=
  runAlone (.nor rd rs rt) (handleNor rd rs rt) s

/-- R518: x[rd] <- signed(x[rs]) < signed(x[rt]) ? 1 : 0. -/
def handleSlt (rd rs rt : RegIx) : Handler := aluRegReg (fun a b => ofBool (signedLess a b)) rd rs rt

/-- The whole effect of `slt`. -/
def execSlt (rd rs rt : RegIx) (s : State) : Host.Outcome State Fault Refusal :=
  runAlone (.slt rd rs rt) (handleSlt rd rs rt) s

/-- R519: x[rd] <- unsigned(x[rs]) < unsigned(x[rt]) ? 1 : 0. -/
def handleSltu (rd rs rt : RegIx) : Handler := aluRegReg (fun a b => ofBool (unsignedLess a b)) rd rs rt

/-- The whole effect of `sltu`. -/
def execSltu (rd rs rt : RegIx) (s : State) : Host.Outcome State Fault Refusal :=
  runAlone (.sltu rd rs rt) (handleSltu rd rs rt) s

/-- R520: x[rd] <- x[rt] << shamt. -/
def handleSll (rd rt : RegIx) (shamt : Nat) : Handler := shiftByImm (fun v n => v <<< n) rd rt shamt

/-- The whole effect of `sll`. -/
def execSll (rd rt : RegIx) (shamt : Nat) (s : State) : Host.Outcome State Fault Refusal :=
  runAlone (.sll rd rt shamt) (handleSll rd rt shamt) s

/-- R521: x[rd] <- x[rt] >>u shamt. -/
def handleSrl (rd rt : RegIx) (shamt : Nat) : Handler := shiftByImm (fun v n => v >>> n) rd rt shamt

/-- The whole effect of `srl`. -/
def execSrl (rd rt : RegIx) (shamt : Nat) (s : State) : Host.Outcome State Fault Refusal :=
  runAlone (.srl rd rt shamt) (handleSrl rd rt shamt) s

/-- R522: x[rd] <- x[rt] >>s shamt. -/
def handleSra (rd rt : RegIx) (shamt : Nat) : Handler := shiftByImm (fun v n => v.sshiftRight n) rd rt shamt

/-- The whole effect of `sra`. -/
def execSra (rd rt : RegIx) (shamt : Nat) (s : State) : Host.Outcome State Fault Refusal :=
  runAlone (.sra rd rt shamt) (handleSra rd rt shamt) s

/-- R523: x[rd] <- x[rt] << x[rs][4:0]. -/
def handleSllv (rd rt rs : RegIx) : Handler := shiftByReg (fun v n => v <<< n) rd rt rs

/-- The whole effect of `sllv`. -/
def execSllv (rd rt rs : RegIx) (s : State) : Host.Outcome State Fault Refusal :=
  runAlone (.sllv rd rt rs) (handleSllv rd rt rs) s

/-- R524: x[rd] <- x[rt] >>u x[rs][4:0]. -/
def handleSrlv (rd rt rs : RegIx) : Handler := shiftByReg (fun v n => v >>> n) rd rt rs

/-- The whole effect of `srlv`. -/
def execSrlv (rd rt rs : RegIx) (s : State) : Host.Outcome State Fault Refusal :=
  runAlone (.srlv rd rt rs) (handleSrlv rd rt rs) s

/-- R525: x[rd] <- x[rt] >>s x[rs][4:0]. -/
def handleSrav (rd rt rs : RegIx) : Handler := shiftByReg (fun v n => v.sshiftRight n) rd rt rs

/-- The whole effect of `srav`. -/
def execSrav (rd rt rs : RegIx) (s : State) : Host.Outcome State Fault Refusal :=
  runAlone (.srav rd rt rs) (handleSrav rd rt rs) s

/-- R530: x[rt] <- x[rs] + sext_16(imm), overflow ignored. -/
def handleAddi (rt rs : RegIx) (imm : Imm16) : Handler := aluRegImm (fun a i => a + simm i) rt rs imm

/-- The whole effect of `addi`. -/
def execAddi (rt rs : RegIx) (imm : Imm16) (s : State) : Host.Outcome State Fault Refusal :=
  runAlone (.addi rt rs imm) (handleAddi rt rs imm) s

/-- R531: x[rt] <- x[rs] + sext_16(imm). -/
def handleAddiu (rt rs : RegIx) (imm : Imm16) : Handler := aluRegImm (fun a i => a + simm i) rt rs imm

/-- The whole effect of `addiu`. -/
def execAddiu (rt rs : RegIx) (imm : Imm16) (s : State) : Host.Outcome State Fault Refusal :=
  runAlone (.addiu rt rs imm) (handleAddiu rt rs imm) s

/-- R532: x[rt] <- signed(x[rs]) < signed(sext_16(imm)) ? 1 : 0. -/
def handleSlti (rt rs : RegIx) (imm : Imm16) : Handler := aluRegImm (fun a i => ofBool (signedLess a (simm i))) rt rs imm

/-- The whole effect of `slti`. -/
def execSlti (rt rs : RegIx) (imm : Imm16) (s : State) : Host.Outcome State Fault Refusal :=
  runAlone (.slti rt rs imm) (handleSlti rt rs imm) s

/-- R533: x[rt] <- unsigned(x[rs]) < unsigned(sext_16(imm)) ? 1 : 0. -/
def handleSltiu (rt rs : RegIx) (imm : Imm16) : Handler := aluRegImm (fun a i => ofBool (unsignedLess a (simm i))) rt rs imm

/-- The whole effect of `sltiu`. -/
def execSltiu (rt rs : RegIx) (imm : Imm16) (s : State) : Host.Outcome State Fault Refusal :=
  runAlone (.sltiu rt rs imm) (handleSltiu rt rs imm) s

/-- R534: x[rt] <- x[rs] & zext_16(imm). -/
def handleAndi (rt rs : RegIx) (imm : Imm16) : Handler := aluRegImm (fun a i => a &&& zimm i) rt rs imm

/-- The whole effect of `andi`. -/
def execAndi (rt rs : RegIx) (imm : Imm16) (s : State) : Host.Outcome State Fault Refusal :=
  runAlone (.andi rt rs imm) (handleAndi rt rs imm) s

/-- R535: x[rt] <- x[rs] | zext_16(imm). -/
def handleOri (rt rs : RegIx) (imm : Imm16) : Handler := aluRegImm (fun a i => a ||| zimm i) rt rs imm

/-- The whole effect of `ori`. -/
def execOri (rt rs : RegIx) (imm : Imm16) (s : State) : Host.Outcome State Fault Refusal :=
  runAlone (.ori rt rs imm) (handleOri rt rs imm) s

/-- R536: x[rt] <- x[rs] ^ zext_16(imm). -/
def handleXori (rt rs : RegIx) (imm : Imm16) : Handler := aluRegImm (fun a i => a ^^^ zimm i) rt rs imm

/-- The whole effect of `xori`. -/
def execXori (rt rs : RegIx) (imm : Imm16) (s : State) : Host.Outcome State Fault Refusal :=
  runAlone (.xori rt rs imm) (handleXori rt rs imm) s

/-- R537: x[rt] <- imm ++ 0x0000; no source register. -/
def handleLui (rt : RegIx) (imm : Imm16) : Handler := { dst := .gpr rt, operate := fun r => { r with resLo := luimm imm } }

/-- The whole effect of `lui`. -/
def execLui (rt : RegIx) (imm : Imm16) (s : State) : Host.Outcome State Fault Refusal :=
  runAlone (.lui rt imm) (handleLui rt imm) s

end Sys2Proof.Machine
end

