-- ==== Sys2Proof/Machine/Control.lean ====
section
/-! DEFINITION. Branches and jumps (43_control.md, R600 to R623). -/

namespace Sys2Proof.Machine

/-- `branch(cond, tgt)` (R606). -/
def Record.branch (r : Record) (cond : Bool) (tgt : Word) : Record := { r with btaken := cond, btgt := tgt }

/-- The link value as the record's general-register result (R603). -/
def Record.link (r : Record) : Record := { r with resLo := linkValue r.insPC }

/-- A conditional branch on two registers (R421, R604, R610, R611). -/
def branchOnTwo (cond : Word → Word → Bool) (rs rt : RegIx) (offset : Imm16) : Handler where
  sources := [.g rs, .g rt]
  isCT := true
  rs := rs
  rt := rt
  operate := fun r => r.branch (cond r.vrs r.vrt) (branchTarget r.insPC offset)

/-- A conditional branch on one register (R421, R604, R612 to R615). -/
def branchOnOne (cond : Word → Bool) (rs : RegIx) (offset : Imm16) : Handler where
  sources := [.g rs]
  isCT := true
  rs := rs
  operate := fun r => r.branch (cond r.vrs) (branchTarget r.insPC offset)

/-- A conditional branch that links r31 whether or not it is taken (R421, R603, R616, R617). -/
def branchAndLink (cond : Word → Bool) (rs : RegIx) (offset : Imm16) : Handler where
  sources := [.g rs]
  dst := .gpr 31#5
  isCT := true
  rs := rs
  operate := fun r => r.link.branch (cond r.vrs) (branchTarget r.insPC offset)

/-- R610: taken when x[rs] = x[rt]. -/
def handleBeq (rs rt : RegIx) (offset : Imm16) : Handler := branchOnTwo condEqual rs rt offset

/-- The whole effect of `beq`. -/
def execBeq (rs rt : RegIx) (offset : Imm16) (s : State) : Host.Outcome State Fault Refusal :=
  runAlone (.beq rs rt offset) (handleBeq rs rt offset) s

/-- R611: taken when x[rs] != x[rt]. -/
def handleBne (rs rt : RegIx) (offset : Imm16) : Handler := branchOnTwo condNotEqual rs rt offset

/-- The whole effect of `bne`. -/
def execBne (rs rt : RegIx) (offset : Imm16) (s : State) : Host.Outcome State Fault Refusal :=
  runAlone (.bne rs rt offset) (handleBne rs rt offset) s

/-- R612: taken when signed(x[rs]) <= 0. -/
def handleBlez (rs : RegIx) (offset : Imm16) : Handler := branchOnOne condLessEqualZero rs offset

/-- The whole effect of `blez`. -/
def execBlez (rs : RegIx) (offset : Imm16) (s : State) : Host.Outcome State Fault Refusal :=
  runAlone (.blez rs offset) (handleBlez rs offset) s

/-- R613: taken when signed(x[rs]) > 0. -/
def handleBgtz (rs : RegIx) (offset : Imm16) : Handler := branchOnOne condGreaterZero rs offset

/-- The whole effect of `bgtz`. -/
def execBgtz (rs : RegIx) (offset : Imm16) (s : State) : Host.Outcome State Fault Refusal :=
  runAlone (.bgtz rs offset) (handleBgtz rs offset) s

/-- R614: taken when signed(x[rs]) < 0. -/
def handleBltz (rs : RegIx) (offset : Imm16) : Handler := branchOnOne condLessZero rs offset

/-- The whole effect of `bltz`. -/
def execBltz (rs : RegIx) (offset : Imm16) (s : State) : Host.Outcome State Fault Refusal :=
  runAlone (.bltz rs offset) (handleBltz rs offset) s

/-- R615: taken when signed(x[rs]) >= 0. -/
def handleBgez (rs : RegIx) (offset : Imm16) : Handler := branchOnOne condGreaterEqualZero rs offset

/-- The whole effect of `bgez`. -/
def execBgez (rs : RegIx) (offset : Imm16) (s : State) : Host.Outcome State Fault Refusal :=
  runAlone (.bgez rs offset) (handleBgez rs offset) s

/-- R616: x[31] <- insPC + 8; taken when signed(x[rs]) < 0. -/
def handleBltzal (rs : RegIx) (offset : Imm16) : Handler := branchAndLink condLessZero rs offset

/-- The whole effect of `bltzal`. -/
def execBltzal (rs : RegIx) (offset : Imm16) (s : State) : Host.Outcome State Fault Refusal :=
  runAlone (.bltzal rs offset) (handleBltzal rs offset) s

/-- R617: x[31] <- insPC + 8; taken when signed(x[rs]) >= 0. -/
def handleBgezal (rs : RegIx) (offset : Imm16) : Handler := branchAndLink condGreaterEqualZero rs offset

/-- The whole effect of `bgezal`. -/
def execBgezal (rs : RegIx) (offset : Imm16) (s : State) : Host.Outcome State Fault Refusal :=
  runAlone (.bgezal rs offset) (handleBgezal rs offset) s

/-- R620: always taken, to the region target. -/
def handleJ (target : Target26) : Handler :=
  { isCT := true, operate := fun r => r.branch true (jumpTarget r.insPC target) }

/-- The whole effect of `j`. -/
def execJ (target : Target26) (s : State) : Host.Outcome State Fault Refusal :=
  runAlone (.j target) (handleJ target) s

/-- R621: x[31] <- insPC + 8; always taken. -/
def handleJal (target : Target26) : Handler :=
  { dst := .gpr 31#5, isCT := true, operate := fun r => r.link.branch true (jumpTarget r.insPC target) }

/-- The whole effect of `jal`. -/
def execJal (target : Target26) (s : State) : Host.Outcome State Fault Refusal :=
  runAlone (.jal target) (handleJal target) s

/-- R622: always taken, to x[rs]. -/
def handleJr (rs : RegIx) : Handler :=
  { sources := [.g rs], isCT := true, rs := rs, operate := fun r => r.branch true r.vrs }

/-- The whole effect of `jr`. -/
def execJr (rs : RegIx) (s : State) : Host.Outcome State Fault Refusal :=
  runAlone (.jr rs) (handleJr rs) s

/-- R623: x[rd] <- insPC + 8; always taken, to x[rs] as Decode read it. -/
def handleJalr (rd rs : RegIx) : Handler :=
  { sources := [.g rs], dst := .gpr rd, isCT := true, rs := rs, operate := fun r => r.link.branch true r.vrs }

/-- The whole effect of `jalr`. -/
def execJalr (rd rs : RegIx) (s : State) : Host.Outcome State Fault Refusal :=
  runAlone (.jalr rd rs) (handleJalr rd rs) s

end Sys2Proof.Machine
end

