-- ==== Sys2Proof/Machine/LoadStore.lean ====
section
/-! DEFINITION. Loads and stores (44_loadstore.md, R650 to R675); what each kind reads and writes is in
Machine/MemOps.lean. -/

namespace Sys2Proof.Machine

/-- Every memory instruction computes its effective address in Execute (R440, R650). -/
def Record.withAddress (r : Record) (offset : Imm16) : Record :=
  { r with addr := effectiveAddress r.vrs offset }

/-- A load of a general register whose old value is not merged (R421, R652). -/
def loadHandler (kind : MemKind) (rt : RegIx) (offset : Imm16) (rs : RegIx) : Handler where
  sources := [.g rs]
  dst := .gpr rt
  mem := some kind
  rs := rs
  operate := fun r => r.withAddress offset

/-- A partial-word load: the old value of rt is a source (R421, R654). -/
def mergeLoadHandler (kind : MemKind) (rt : RegIx) (offset : Imm16) (rs : RegIx) : Handler where
  sources := [.g rs, .g rt]
  dst := .gpr rt
  mem := some kind
  rs := rs
  rt := rt
  operate := fun r => r.withAddress offset

/-- A store of a general register (R421, R653). -/
def storeHandler (kind : MemKind) (rt : RegIx) (offset : Imm16) (rs : RegIx) : Handler where
  sources := [.g rs, .g rt]
  mem := some kind
  rs := rs
  rt := rt
  operate := fun r => r.withAddress offset

/-- R660: x[rt] <- sext_8(MemRead(A, 1)). -/
def handleLb (rt : RegIx) (offset : Imm16) (rs : RegIx) : Handler := loadHandler .lb rt offset rs

/-- The whole effect of `lb`. -/
def execLb (rt : RegIx) (offset : Imm16) (rs : RegIx) (s : State) : Host.Outcome State Fault Refusal :=
  runAlone (.lb rt offset rs) (handleLb rt offset rs) s

/-- R661: x[rt] <- zext_8(MemRead(A, 1)). -/
def handleLbu (rt : RegIx) (offset : Imm16) (rs : RegIx) : Handler := loadHandler .lbu rt offset rs

/-- The whole effect of `lbu`. -/
def execLbu (rt : RegIx) (offset : Imm16) (rs : RegIx) (s : State) : Host.Outcome State Fault Refusal :=
  runAlone (.lbu rt offset rs) (handleLbu rt offset rs) s

/-- R662: x[rt] <- sext_16(MemRead(A, 2)). -/
def handleLh (rt : RegIx) (offset : Imm16) (rs : RegIx) : Handler := loadHandler .lh rt offset rs

/-- The whole effect of `lh`. -/
def execLh (rt : RegIx) (offset : Imm16) (rs : RegIx) (s : State) : Host.Outcome State Fault Refusal :=
  runAlone (.lh rt offset rs) (handleLh rt offset rs) s

/-- R663: x[rt] <- zext_16(MemRead(A, 2)). -/
def handleLhu (rt : RegIx) (offset : Imm16) (rs : RegIx) : Handler := loadHandler .lhu rt offset rs

/-- The whole effect of `lhu`. -/
def execLhu (rt : RegIx) (offset : Imm16) (rs : RegIx) (s : State) : Host.Outcome State Fault Refusal :=
  runAlone (.lhu rt offset rs) (handleLhu rt offset rs) s

/-- R664: x[rt] <- MemRead(A, 4). -/
def handleLw (rt : RegIx) (offset : Imm16) (rs : RegIx) : Handler := loadHandler .lw rt offset rs

/-- The whole effect of `lw`. -/
def execLw (rt : RegIx) (offset : Imm16) (rs : RegIx) (s : State) : Host.Outcome State Fault Refusal :=
  runAlone (.lw rt offset rs) (handleLw rt offset rs) s

/-- R665: f[ft] <- MemRead(A, 4); never in the bypass copy (R455). -/
def handleLwc1 (ft : RegIx) (offset : Imm16) (rs : RegIx) : Handler :=
  { sources := [.g rs], dst := .fpr ft, mem := some .lwc1, rs := rs, operate := fun r => r.withAddress offset }

/-- The whole effect of `lwc1`. -/
def execLwc1 (ft : RegIx) (offset : Imm16) (rs : RegIx) (s : State) : Host.Outcome State Fault Refusal :=
  runAlone (.lwc1 ft offset rs) (handleLwc1 ft offset rs) s

/-- R666: the bytes A to the end of the aligned word into the high end of x[rt]. -/
def handleLwl (rt : RegIx) (offset : Imm16) (rs : RegIx) : Handler := mergeLoadHandler .lwl rt offset rs

/-- The whole effect of `lwl`. -/
def execLwl (rt : RegIx) (offset : Imm16) (rs : RegIx) (s : State) : Host.Outcome State Fault Refusal :=
  runAlone (.lwl rt offset rs) (handleLwl rt offset rs) s

/-- R667: the bytes from the start of the aligned word to A into the low end of x[rt]. -/
def handleLwr (rt : RegIx) (offset : Imm16) (rs : RegIx) : Handler := mergeLoadHandler .lwr rt offset rs

/-- The whole effect of `lwr`. -/
def execLwr (rt : RegIx) (offset : Imm16) (rs : RegIx) (s : State) : Host.Outcome State Fault Refusal :=
  runAlone (.lwr rt offset rs) (handleLwr rt offset rs) s

/-- R670: MemWrite(A, 1, x[rt][7:0]). -/
def handleSb (rt : RegIx) (offset : Imm16) (rs : RegIx) : Handler := storeHandler .sb rt offset rs

/-- The whole effect of `sb`. -/
def execSb (rt : RegIx) (offset : Imm16) (rs : RegIx) (s : State) : Host.Outcome State Fault Refusal :=
  runAlone (.sb rt offset rs) (handleSb rt offset rs) s

/-- R671: MemWrite(A, 2, x[rt][15:0]). -/
def handleSh (rt : RegIx) (offset : Imm16) (rs : RegIx) : Handler := storeHandler .sh rt offset rs

/-- The whole effect of `sh`. -/
def execSh (rt : RegIx) (offset : Imm16) (rs : RegIx) (s : State) : Host.Outcome State Fault Refusal :=
  runAlone (.sh rt offset rs) (handleSh rt offset rs) s

/-- R672: MemWrite(A, 4, x[rt]). -/
def handleSw (rt : RegIx) (offset : Imm16) (rs : RegIx) : Handler := storeHandler .sw rt offset rs

/-- The whole effect of `sw`. -/
def execSw (rt : RegIx) (offset : Imm16) (rs : RegIx) (s : State) : Host.Outcome State Fault Refusal :=
  runAlone (.sw rt offset rs) (handleSw rt offset rs) s

/-- R673: MemWrite(A, 4, f[ft]). -/
def handleSwc1 (ft : RegIx) (offset : Imm16) (rs : RegIx) : Handler :=
  { sources := [.g rs, .f ft], mem := some .swc1, rs := rs, readsFpr := some ft,
    operate := fun r => r.withAddress offset }

/-- The whole effect of `swc1`. -/
def execSwc1 (ft : RegIx) (offset : Imm16) (rs : RegIx) (s : State) : Host.Outcome State Fault Refusal :=
  runAlone (.swc1 ft offset rs) (handleSwc1 ft offset rs) s

/-- R674: the high bytes of x[rt] to A and on to the end of the aligned word. -/
def handleSwl (rt : RegIx) (offset : Imm16) (rs : RegIx) : Handler := storeHandler .swl rt offset rs

/-- The whole effect of `swl`. -/
def execSwl (rt : RegIx) (offset : Imm16) (rs : RegIx) (s : State) : Host.Outcome State Fault Refusal :=
  runAlone (.swl rt offset rs) (handleSwl rt offset rs) s

/-- R675: the low bytes of x[rt] from the start of the aligned word to A. -/
def handleSwr (rt : RegIx) (offset : Imm16) (rs : RegIx) : Handler := storeHandler .swr rt offset rs

/-- The whole effect of `swr`. -/
def execSwr (rt : RegIx) (offset : Imm16) (rs : RegIx) (s : State) : Host.Outcome State Fault Refusal :=
  runAlone (.swr rt offset rs) (handleSwr rt offset rs) s

end Sys2Proof.Machine
end

