-- ==== Sys2Proof/Machine/MulDiv.lean ====
section
/-! DEFINITION. Multiply, divide and the Hi/Lo moves (42_muldiv.md, R550 to R573). -/

namespace Sys2Proof.Machine

/-- The row of the four instructions that write the Hi/Lo pair from two registers (R421, R550). -/
def hiloRegReg (operate : Record → Record) (rs rt : RegIx) : Handler where
  sources := [.g rs, .g rt]
  dst := .hilo true true
  rs := rs
  rt := rt
  operate := operate

/-- Both result words of a record (R550). -/
def Record.withHiLo (r : Record) (h l : Word) : Record := { r with resHi := h, resLo := l }

/-- The two halves of a 64-bit product (R552, R560, R561). -/
def Record.withProduct (r : Record) (p : BitVec 64) : Record :=
  r.withHiLo (p.extractLsb' 32 32) (p.extractLsb' 0 32)

/-- `signed(a) * signed(b)`, modulo 2^64 (R560). -/
def signedProduct (a b : Word) : BitVec 64 := BitVec.ofInt 64 (a.toInt * b.toInt)

/-- `unsigned(a) * unsigned(b)` (R561). -/
def unsignedProduct (a b : Word) : BitVec 64 := BitVec.ofNat 64 (a.toNat * b.toNat)

/-- `truncdiv(signed(a), signed(b))[31:0]` (R12, R562). -/
def signedQuotient (a b : Word) : Word := BitVec.ofInt 32 (a.toInt.tdiv b.toInt)

/-- `(signed(a) - signed(b) * q)[31:0]` (R12, R562). -/
def signedRemainder (a b : Word) : Word := BitVec.ofInt 32 (a.toInt - b.toInt * a.toInt.tdiv b.toInt)

/-- The quotient -2^31 / -1 has no 32-bit value (R562). -/
def divOverflows (a b : Word) : Bool := decide (a = 0x80000000#32) && decide (b = 0xffffffff#32)

/-- `div` in Execute (R562). -/
def operateDiv (mode : DivOverflowMode) (r : Record) : Record :=
  if r.vrt = 0#32 then r.withHiLo Config.div0Hi Config.div0Lo
  else if divOverflows r.vrs r.vrt then
    match mode with
    | .fault => r.raise (.divOverflow r.insPC)
    | .value h l => r.withHiLo h l
  else r.withHiLo (signedRemainder r.vrs r.vrt) (signedQuotient r.vrs r.vrt)

/-- `divu` in Execute (R563). -/
def operateDivu (r : Record) : Record :=
  if r.vrt = 0#32 then r.withHiLo Config.div0Hi Config.div0Lo
  else r.withHiLo (BitVec.ofNat 32 (r.vrs.toNat % r.vrt.toNat)) (BitVec.ofNat 32 (r.vrs.toNat / r.vrt.toNat))

/-- A move from a half of the pair: `x[rd] <- HI` or `LO` (R421, R570, R571). -/
def moveFromHiLo (half : HiLoHalf) (rd : RegIx) : Handler where
  sources := [.hilo]
  dst := .gpr rd
  readsHiLo := some half
  operate := fun r => { r with resLo := r.vhl }

/-- R560: HI, LO <- the signed product. -/
def handleMult (rs rt : RegIx) : Handler := hiloRegReg (fun r => r.withProduct (signedProduct r.vrs r.vrt)) rs rt

/-- The whole effect of `mult`. -/
def execMult (rs rt : RegIx) (s : State) : Host.Outcome State Fault Refusal :=
  runAlone (.mult rs rt) (handleMult rs rt) s

/-- R561: HI, LO <- the unsigned product. -/
def handleMultu (rs rt : RegIx) : Handler := hiloRegReg (fun r => r.withProduct (unsignedProduct r.vrs r.vrt)) rs rt

/-- The whole effect of `multu`. -/
def execMultu (rs rt : RegIx) (s : State) : Host.Outcome State Fault Refusal :=
  runAlone (.multu rs rt) (handleMultu rs rt) s

/-- R562: LO <- the signed quotient, HI <- the remainder; by zero DIV0_HI, DIV0_LO; overflow as DIV_OVERFLOW says. -/
def handleDiv (p : Params) (rs rt : RegIx) : Handler := hiloRegReg (operateDiv p.divOverflow) rs rt

/-- The whole effect of `div`. -/
def execDiv (rs rt : RegIx) (s : State) : Host.Outcome State Fault Refusal :=
  runAlone (.div rs rt) (handleDiv s.params rs rt) s

/-- R563: LO <- the unsigned quotient, HI <- the remainder; by zero DIV0_HI, DIV0_LO. -/
def handleDivu (rs rt : RegIx) : Handler := hiloRegReg operateDivu rs rt

/-- The whole effect of `divu`. -/
def execDivu (rs rt : RegIx) (s : State) : Host.Outcome State Fault Refusal :=
  runAlone (.divu rs rt) (handleDivu rs rt) s

/-- R570: x[rd] <- HI. -/
def handleMfhi (rd : RegIx) : Handler := moveFromHiLo .hi rd

/-- The whole effect of `mfhi`. -/
def execMfhi (rd : RegIx) (s : State) : Host.Outcome State Fault Refusal :=
  runAlone (.mfhi rd) (handleMfhi rd) s

/-- R571: x[rd] <- LO. -/
def handleMflo (rd : RegIx) : Handler := moveFromHiLo .lo rd

/-- The whole effect of `mflo`. -/
def execMflo (rd : RegIx) (s : State) : Host.Outcome State Fault Refusal :=
  runAlone (.mflo rd) (handleMflo rd) s

/-- R572: HI <- x[rs]; LO unchanged. -/
def handleMthi (rs : RegIx) : Handler := { sources := [.g rs], dst := .hilo true false, rs := rs, operate := fun r => { r with resHi := r.vrs } }

/-- The whole effect of `mthi`. -/
def execMthi (rs : RegIx) (s : State) : Host.Outcome State Fault Refusal :=
  runAlone (.mthi rs) (handleMthi rs) s

/-- R573: LO <- x[rs]; HI unchanged. -/
def handleMtlo (rs : RegIx) : Handler := { sources := [.g rs], dst := .hilo false true, rs := rs, operate := fun r => { r with resLo := r.vrs } }

/-- The whole effect of `mtlo`. -/
def execMtlo (rs : RegIx) (s : State) : Host.Outcome State Fault Refusal :=
  runAlone (.mtlo rs) (handleMtlo rs) s

end Sys2Proof.Machine
end

