-- ==== Sys2Proof/Machine/System.lean ====
section
/-! DEFINITION. The trap instructions and the floating-point moves (45_system_fp.md, R700 to R712). -/

namespace Sys2Proof.Machine

/-- The row of a trap: no source, no destination; Writeback runs the trap (R421, R700). -/
def trapHandler : Handler := { isSyscall := true }

/-- R700: the trap, at Writeback. -/
def handleSyscall : Handler := trapHandler

/-- The whole effect of `syscall`. -/
def execSyscall (s : State) : Host.Outcome State Fault Refusal :=
  runAlone .syscall handleSyscall s

/-- R701: the same trap under BREAK_MODE = trap, an illegal operation under illegal. -/
def handleBrk (p : Params) : Handler :=
  match p.breakMode with
  | .trap => trapHandler
  | .illegal => illegalHandler

/-- The whole effect of `break`. -/
def execBrk (s : State) : Host.Outcome State Fault Refusal :=
  runAlone .brk (handleBrk s.params) s

/-- R711: x[rt] <- f[fs]. -/
def handleMfc1 (rt fs : RegIx) : Handler :=
  { sources := [.f fs], dst := .gpr rt, readsFpr := some fs, operate := fun r => { r with resLo := r.vf } }

/-- The whole effect of `mfc1`. -/
def execMfc1 (rt fs : RegIx) (s : State) : Host.Outcome State Fault Refusal :=
  runAlone (.mfc1 rt fs) (handleMfc1 rt fs) s

/-- R712: f[fs] <- x[rt]. -/
def handleMtc1 (rt fs : RegIx) : Handler :=
  { sources := [.g rt], dst := .fpr fs, rt := rt, operate := fun r => { r with resLo := r.vrt } }

/-- The whole effect of `mtc1`. -/
def execMtc1 (rt fs : RegIx) (s : State) : Host.Outcome State Fault Refusal :=
  runAlone (.mtc1 rt fs) (handleMtc1 rt fs) s

end Sys2Proof.Machine
end

