-- ==== Sys2Proof/Machine/Handlers.lean ====
section
/-! DEFINITION. The handler of every instruction: "operation handler reference" and "memory-operation
handler reference" are functions of the instruction (R120). -/

namespace Sys2Proof.Machine

/-- The handler of an instruction, under the parameters (R9, R120). -/
def handlerOf (p : Params) : Instr → Handler
  | .add rd rs rt => handleAdd rd rs rt
  | .addu rd rs rt => handleAddu rd rs rt
  | .sub rd rs rt => handleSub rd rs rt
  | .subu rd rs rt => handleSubu rd rs rt
  | .and rd rs rt => handleAnd rd rs rt
  | .or rd rs rt => handleOr rd rs rt
  | .xor rd rs rt => handleXor rd rs rt
  | .nor rd rs rt => handleNor rd rs rt
  | .slt rd rs rt => handleSlt rd rs rt
  | .sltu rd rs rt => handleSltu rd rs rt
  | .sll rd rt shamt => handleSll rd rt shamt
  | .srl rd rt shamt => handleSrl rd rt shamt
  | .sra rd rt shamt => handleSra rd rt shamt
  | .sllv rd rt rs => handleSllv rd rt rs
  | .srlv rd rt rs => handleSrlv rd rt rs
  | .srav rd rt rs => handleSrav rd rt rs
  | .addi rt rs imm => handleAddi rt rs imm
  | .addiu rt rs imm => handleAddiu rt rs imm
  | .slti rt rs imm => handleSlti rt rs imm
  | .sltiu rt rs imm => handleSltiu rt rs imm
  | .andi rt rs imm => handleAndi rt rs imm
  | .ori rt rs imm => handleOri rt rs imm
  | .xori rt rs imm => handleXori rt rs imm
  | .lui rt imm => handleLui rt imm
  | .mult rs rt => handleMult rs rt
  | .multu rs rt => handleMultu rs rt
  | .div rs rt => handleDiv p rs rt
  | .divu rs rt => handleDivu rs rt
  | .mfhi rd => handleMfhi rd
  | .mflo rd => handleMflo rd
  | .mthi rs => handleMthi rs
  | .mtlo rs => handleMtlo rs
  | .beq rs rt offset => handleBeq rs rt offset
  | .bne rs rt offset => handleBne rs rt offset
  | .blez rs offset => handleBlez rs offset
  | .bgtz rs offset => handleBgtz rs offset
  | .bltz rs offset => handleBltz rs offset
  | .bgez rs offset => handleBgez rs offset
  | .bltzal rs offset => handleBltzal rs offset
  | .bgezal rs offset => handleBgezal rs offset
  | .j target => handleJ target
  | .jal target => handleJal target
  | .jr rs => handleJr rs
  | .jalr rd rs => handleJalr rd rs
  | .lb rt offset rs => handleLb rt offset rs
  | .lbu rt offset rs => handleLbu rt offset rs
  | .lh rt offset rs => handleLh rt offset rs
  | .lhu rt offset rs => handleLhu rt offset rs
  | .lw rt offset rs => handleLw rt offset rs
  | .lwc1 ft offset rs => handleLwc1 ft offset rs
  | .lwl rt offset rs => handleLwl rt offset rs
  | .lwr rt offset rs => handleLwr rt offset rs
  | .sb rt offset rs => handleSb rt offset rs
  | .sh rt offset rs => handleSh rt offset rs
  | .sw rt offset rs => handleSw rt offset rs
  | .swc1 ft offset rs => handleSwc1 ft offset rs
  | .swl rt offset rs => handleSwl rt offset rs
  | .swr rt offset rs => handleSwr rt offset rs
  | .syscall => handleSyscall
  | .brk => handleBrk p
  | .mfc1 rt fs => handleMfc1 rt fs
  | .mtc1 rt fs => handleMtc1 rt fs

end Sys2Proof.Machine
end

