-- ==== Sys2Proof/Machine/Pipeline.lean ====
section
/-! DEFINITION. The pipeline: the Decode step (R410), the clock cycle (R401 to R404) and the driver's
budget check (R485), made of the operations of Machine/Stages.lean; and the placing of an instruction
where the next cycle decodes it. -/

namespace Sys2Proof.Machine

/-- What a word in IFID is, and its handler: `decode` of R412. -/
def entryOp (w : Word) : Op :=
  match decode w with
  | .ok i => .instr i
  | .error _ => .illegal

/-- The handler of an op: an illegal word has the row of illegal encodings, a fault record and a
bubble have no effect at all (R120, R412). -/
def opHandler (p : Params) : Op → Handler
  | .instr i => handlerOf p i
  | .illegal => illegalHandler
  | .fault | .bubble => {}

/-! ### Decode (R410) -/

/-- What the Decode step answers (R410). -/
structure IdResult where
  record   : Record
  consumed : Bool
  newCT    : Bool
  state    : State
  deriving DecidableEq, Repr

/-- The record of a fetch fault that Decode has reached (R410, R411). -/
def faultRecord (d : FetchLatch) (f : ModelFault) (bd : Bool) : Record :=
  { Record.bubble with op := .fault, ins := d.ins, insPC := d.insPC, exc := some (.fault f), bd := bd }

/-- The real decode of a waiting word: a stall, or the record and the gates (R410, R427). -/
def idDecode (d : FetchLatch) (e m w : Record) (s : State) : IdResult :=
  let op := entryOp d.ins
  let h := opHandler s.params op
  let n := hazard h e m w
  if 0 < n then
    { record := .bubble, consumed := false, newCT := false, state := { s with decoderStall := n - 1 } }
  else
    let r := issueRecord op h d e m s
    { record := r, consumed := true, newCT := r.isCT, state := issueState op h d e m s }

/-- `ID_step(D, E, M, W, ss)` (R410). -/
def idStep (d : FetchLatch) (e m w : Record) (ss : Bool) (s : State) : IdResult :=
  if ss then { record := .bubble, consumed := true, newCT := false, state := s }
  else if 0 < s.decoderStall then
    { record := .bubble, consumed := false, newCT := false,
      state := { s with decoderStall := s.decoderStall - 1 } }
  else if d.valid = false then { record := .bubble, consumed := true, newCT := false, state := s }
  else
    match d.ffault with
    | some f =>
      { record := faultRecord d f s.bdPending, consumed := true, newCT := false,
        state := { s with bdPending := false } }
    | none => idDecode d e m w s

/-! ### The cycle (R401 to R404) -/

/-- Execute on the record of the latch, with the handler of its op (R440). -/
def exStepRecord (p : Params) (e : Record) : Record := exRecord (opHandler p e.op).operate e

/-- Execute on the state (R440). -/
def exStepState (e : Record) (s : State) : State := exState (opHandler s.params e.op).operate e s

/-- The state after the Writeback, Execute and Memory commits of the falling phase, before Decode. -/
def afterMemory (s : State) : State :=
  memState s.exmem (exStepState s.idex (wbState s.memwb s))

/-- The record Memory hands on; it sees the memory after Writeback and Execute (R401, R402). -/
def memOut (s : State) : Record := memRecord s.exmem (exStepState s.idex (wbState s.memwb s))

/-- The Decode step of the cycle: it sees the commits before it and the records now in Execute,
Memory and Writeback (R403, R420). -/
def idOut (s : State) : IdResult :=
  idStep s.ifid (exStepRecord s.params s.idex) (memOut s) s.memwb
    (afterMemory s).syscallStall (afterMemory s)

/-- The state after Decode and Fetch; `branch_stall` as captured at the rising point gates the fetch,
and the new gate is Decode's (R403, R429, R480). -/
def afterFetch (s : State) : State :=
  ifState (idOut s).consumed (afterMemory s).syscallStall s.branchStall
    { (idOut s).state with branchStall := (idOut s).newCT }

/-- The latches loaded at the end of the falling phase (R402). -/
def State.loadLatches (s : State) (d e m : Record) : State :=
  { s with idex := d, exmem := e, memwb := m }

/-- `budget_check()` (R485). -/
def State.budgetCheck (s : State) : State :=
  if s.budgetSpent && !s.ifid.valid && s.idex.isBubble && s.exmem.isBubble && s.memwb.isBubble then
    s.setStatus .stopped
  else s

/-- ONE CLOCK CYCLE of a running machine (R403). A Writeback step that ends the run ends the cycle: no
later step runs and no latch is loaded (R404). -/
def cycle (s : State) : State :=
  let s' := wbState s.memwb s
  if s'.status.isRunning then
    ((afterFetch s).loadLatches (idOut s).record (exStepRecord s.params s.idex) (memOut s)).budgetCheck
  else s'

/-- An instruction word where the next cycle decodes it: in memory at `pc` and in IFID, as the fetch
unit leaves it, the latches behind it empty and no stall pending (log entry 6). -/
def placeWord (s : State) (w : Word) : State :=
  { s with
    mem := s.mem.write32 s.pc w
    ifid := { valid := true, ins := w, insPC := s.pc, ffault := none }
    pc := s.pc + 4#32
    nfetched := s.nfetched + 1
    idex := .bubble
    exmem := .bubble
    memwb := .bubble
    decoderStall := 0
    branchStall := false
    syscallStall := false }

end Sys2Proof.Machine
end

