-- ==== Sys2Proof/Machine/Step.lean ====
section
/-! DEFINITION. One step of the machine is one clock cycle (R403); in a state whose run has ended there
is no step (R119). -/

namespace Sys2Proof.Machine

/-- One clock cycle, while the status is `Running` (R119, R403). -/
def step (s : State) : Host.Outcome State Fault Refusal :=
  if s.status.isRunning then .next (cycle s) else .fault .runEnded

/-- The state in which the next step decodes and issues the table word (log entry 6). -/
def State.withFetchWord (s : State) (nbits w : Nat) : State := placeWord s (tableWord nbits w)

end Sys2Proof.Machine
end

