-- ==== Sys2Proof/Machine/Assembler.lean ====
section
/-! DEFINITION. What the spec says of assembly (R101, R340 to R342): the field a label encodes to, the
text of an instruction, the pseudo-instructions and their expansions, and the software names of the
registers. The core does none of this itself. -/

namespace Sys2Proof.Machine

/-! ### Labels (R341) -/

/-- The offset field of a branch at `insPC` to `label`: `((label - (insPC + 4)) >> 2)[15:0]` (R341). -/
def branchField (insPC label : Word) : Imm16 := (label - (insPC + 4#32)).extractLsb' 2 16

/-- The label can be written: a multiple of 4 away, and the offset fits in 16 signed bits (R341). -/
def branchReaches (insPC label : Word) : Bool :=
  decide ((label - (insPC + 4#32)).extractLsb' 0 2 = 0#2) &&
    decide (-(2 ^ 17) ≤ (label - (insPC + 4#32)).toInt) &&
    decide ((label - (insPC + 4#32)).toInt < 2 ^ 17)

/-- The target field of a jump to `label`: `label[27:2]` (R341). -/
def jumpField (label : Word) : Target26 := label.extractLsb' 2 26

/-- The label can be written: word-aligned, in the 256 MiB region of `insPC + 4` (R341). -/
def jumpReaches (insPC label : Word) : Bool :=
  decide (label.extractLsb' 0 2 = 0#2) &&
    decide (label.extractLsb' 28 4 = (insPC + 4#32).extractLsb' 28 4)

/-! ### Assembly text (R340) -/

/-- A general register as the source writes it, `r0` to `r31` (R101, R340). -/
def gprText (i : RegIx) : String := "r" ++ toString i.toNat

/-- A floating-point register, `f0` to `f31` (R308). -/
def fprText (i : RegIx) : String := "f" ++ toString i.toNat

/-- A sign-extended immediate, in decimal (R340, log entry 17). -/
def signedText (imm : Imm16) : String := toString imm.toInt

/-- A zero-extended immediate, in decimal (R340, log entry 17). -/
def unsignedText (imm : Imm16) : String := toString imm.toNat

/-- `op a, b, c`. -/
def asmLine (op : String) (operands : List String) : String :=
  op ++ (if operands.isEmpty then "" else " " ++ ", ".intercalate operands)

/-- `offset(base)` (R340). -/
def memText (offset : Imm16) (rs : RegIx) : String := signedText offset ++ "(" ++ gprText rs ++ ")"

/-- An instruction as the assembler writes it: mnemonic, destination first (R340). -/
def asmText : Instr → String
  | .add rd rs rt => asmLine "add" [gprText rd, gprText rs, gprText rt]
  | .addu rd rs rt => asmLine "addu" [gprText rd, gprText rs, gprText rt]
  | .sub rd rs rt => asmLine "sub" [gprText rd, gprText rs, gprText rt]
  | .subu rd rs rt => asmLine "subu" [gprText rd, gprText rs, gprText rt]
  | .and rd rs rt => asmLine "and" [gprText rd, gprText rs, gprText rt]
  | .or rd rs rt => asmLine "or" [gprText rd, gprText rs, gprText rt]
  | .xor rd rs rt => asmLine "xor" [gprText rd, gprText rs, gprText rt]
  | .nor rd rs rt => asmLine "nor" [gprText rd, gprText rs, gprText rt]
  | .slt rd rs rt => asmLine "slt" [gprText rd, gprText rs, gprText rt]
  | .sltu rd rs rt => asmLine "sltu" [gprText rd, gprText rs, gprText rt]
  | .sll rd rt shamt => asmLine "sll" [gprText rd, gprText rt, toString shamt]
  | .srl rd rt shamt => asmLine "srl" [gprText rd, gprText rt, toString shamt]
  | .sra rd rt shamt => asmLine "sra" [gprText rd, gprText rt, toString shamt]
  | .sllv rd rt rs => asmLine "sllv" [gprText rd, gprText rt, gprText rs]
  | .srlv rd rt rs => asmLine "srlv" [gprText rd, gprText rt, gprText rs]
  | .srav rd rt rs => asmLine "srav" [gprText rd, gprText rt, gprText rs]
  | .addi rt rs imm => asmLine "addi" [gprText rt, gprText rs, signedText imm]
  | .addiu rt rs imm => asmLine "addiu" [gprText rt, gprText rs, signedText imm]
  | .slti rt rs imm => asmLine "slti" [gprText rt, gprText rs, signedText imm]
  | .sltiu rt rs imm => asmLine "sltiu" [gprText rt, gprText rs, signedText imm]
  | .andi rt rs imm => asmLine "andi" [gprText rt, gprText rs, unsignedText imm]
  | .ori rt rs imm => asmLine "ori" [gprText rt, gprText rs, unsignedText imm]
  | .xori rt rs imm => asmLine "xori" [gprText rt, gprText rs, unsignedText imm]
  | .lui rt imm => asmLine "lui" [gprText rt, unsignedText imm]
  | .mult rs rt => asmLine "mult" [gprText rs, gprText rt]
  | .multu rs rt => asmLine "multu" [gprText rs, gprText rt]
  | .div rs rt => asmLine "div" [gprText rs, gprText rt]
  | .divu rs rt => asmLine "divu" [gprText rs, gprText rt]
  | .mfhi rd => asmLine "mfhi" [gprText rd]
  | .mflo rd => asmLine "mflo" [gprText rd]
  | .mthi rs => asmLine "mthi" [gprText rs]
  | .mtlo rs => asmLine "mtlo" [gprText rs]
  | .beq rs rt offset => asmLine "beq" [gprText rs, gprText rt, signedText offset]
  | .bne rs rt offset => asmLine "bne" [gprText rs, gprText rt, signedText offset]
  | .blez rs offset => asmLine "blez" [gprText rs, signedText offset]
  | .bgtz rs offset => asmLine "bgtz" [gprText rs, signedText offset]
  | .bltz rs offset => asmLine "bltz" [gprText rs, signedText offset]
  | .bgez rs offset => asmLine "bgez" [gprText rs, signedText offset]
  | .bltzal rs offset => asmLine "bltzal" [gprText rs, signedText offset]
  | .bgezal rs offset => asmLine "bgezal" [gprText rs, signedText offset]
  | .j target => asmLine "j" [toString target.toNat]
  | .jal target => asmLine "jal" [toString target.toNat]
  | .jr rs => asmLine "jr" [gprText rs]
  | .jalr rd rs => asmLine "jalr" (if rd = 31#5 then [gprText rs] else [gprText rd, gprText rs])
  | .lb rt offset rs => asmLine "lb" [gprText rt, memText offset rs]
  | .lbu rt offset rs => asmLine "lbu" [gprText rt, memText offset rs]
  | .lh rt offset rs => asmLine "lh" [gprText rt, memText offset rs]
  | .lhu rt offset rs => asmLine "lhu" [gprText rt, memText offset rs]
  | .lw rt offset rs => asmLine "lw" [gprText rt, memText offset rs]
  | .lwl rt offset rs => asmLine "lwl" [gprText rt, memText offset rs]
  | .lwr rt offset rs => asmLine "lwr" [gprText rt, memText offset rs]
  | .sb rt offset rs => asmLine "sb" [gprText rt, memText offset rs]
  | .sh rt offset rs => asmLine "sh" [gprText rt, memText offset rs]
  | .sw rt offset rs => asmLine "sw" [gprText rt, memText offset rs]
  | .swl rt offset rs => asmLine "swl" [gprText rt, memText offset rs]
  | .swr rt offset rs => asmLine "swr" [gprText rt, memText offset rs]
  | .lwc1 ft offset rs => asmLine "lwc1" [fprText ft, memText offset rs]
  | .swc1 ft offset rs => asmLine "swc1" [fprText ft, memText offset rs]
  | .syscall => "syscall"
  | .brk => "break"
  | .mfc1 rt fs => asmLine "mfc1" [gprText rt, fprText fs]
  | .mtc1 rt fs => asmLine "mtc1" [gprText rt, fprText fs]

/-! ### Pseudo-instructions (R342) -/

/-- The pseudo-instructions of R342, each label as the address it stands for. -/
inductive Pseudo where
  | nop
  | move (rd rs : RegIx)
  | li (rt : RegIx) (imm : Word)
  | la (rt : RegIx) (addr : Word)
  | b (label : Word)
  | bal (label : Word)
  | beqz (rs : RegIx) (label : Word)
  | bnez (rs : RegIx) (label : Word)
  | neg (rd rs : RegIx)
  | negu (rd rs : RegIx)
  | not (rd rs : RegIx)
  | blt (rs rt : RegIx) (label : Word)
  | bge (rs rt : RegIx) (label : Word)
  | bgt (rs rt : RegIx) (label : Word)
  | ble (rs rt : RegIx) (label : Word)
  | bltu (rs rt : RegIx) (label : Word)
  | bgeu (rs rt : RegIx) (label : Word)
  | bgtu (rs rt : RegIx) (label : Word)
  | bleu (rs rt : RegIx) (label : Word)
  deriving DecidableEq, Repr

/-- `lui rt, v[31:16]` and `ori rt, rt, v[15:0]` (R342). -/
def loadConstant (rt : RegIx) (v : Word) : List Instr :=
  [.lui rt (v.extractLsb' 16 16), .ori rt rt (v.extractLsb' 0 16)]

/-- The expansion of a pseudo-instruction that stands at address `pc` (R342). A two-instruction branch
has its branch at `pc + 4`. -/
def Pseudo.expand (pc : Word) : Pseudo → List Instr
  | .nop => [.sll 0#5 0#5 0]
  | .move rd rs => [.addu rd rs 0#5]
  | .li rt imm =>
    if imm = (imm.extractLsb' 0 16).signExtend 32 then [.addiu rt 0#5 (imm.extractLsb' 0 16)]
    else if imm = (imm.extractLsb' 0 16).zeroExtend 32 then [.ori rt 0#5 (imm.extractLsb' 0 16)]
    else loadConstant rt imm
  | .la rt addr => loadConstant rt addr
  | .b label => [.beq 0#5 0#5 (branchField pc label)]
  | .bal label => [.bgezal 0#5 (branchField pc label)]
  | .beqz rs label => [.beq rs 0#5 (branchField pc label)]
  | .bnez rs label => [.bne rs 0#5 (branchField pc label)]
  | .neg rd rs => [.sub rd 0#5 rs]
  | .negu rd rs => [.subu rd 0#5 rs]
  | .not rd rs => [.nor rd rs 0#5]
  | .blt rs rt label => [.slt 1#5 rs rt, .bne 1#5 0#5 (branchField (pc + 4#32) label)]
  | .bge rs rt label => [.slt 1#5 rs rt, .beq 1#5 0#5 (branchField (pc + 4#32) label)]
  | .bgt rs rt label => [.slt 1#5 rt rs, .bne 1#5 0#5 (branchField (pc + 4#32) label)]
  | .ble rs rt label => [.slt 1#5 rt rs, .beq 1#5 0#5 (branchField (pc + 4#32) label)]
  | .bltu rs rt label => [.sltu 1#5 rs rt, .bne 1#5 0#5 (branchField (pc + 4#32) label)]
  | .bgeu rs rt label => [.sltu 1#5 rs rt, .beq 1#5 0#5 (branchField (pc + 4#32) label)]
  | .bgtu rs rt label => [.sltu 1#5 rt rs, .bne 1#5 0#5 (branchField (pc + 4#32) label)]
  | .bleu rs rt label => [.sltu 1#5 rt rs, .beq 1#5 0#5 (branchField (pc + 4#32) label)]

/-! ### Software names of the registers (R101) -/

/-- The conventional names of r0 to r31, in order (R101); they mean nothing to the hardware. -/
def softwareNames : List String :=
  ["zero", "at", "v0", "v1", "a0", "a1", "a2", "a3"] ++
  ["t0", "t1", "t2", "t3", "t4", "t5", "t6", "t7"] ++
  ["s0", "s1", "s2", "s3", "s4", "s5", "s6", "s7"] ++
  ["t8", "t9", "k0", "k1", "gp", "sp", "fp", "ra"]

/-- The software name of a register (R101). -/
def registerName (i : RegIx) : String := (softwareNames[i.toNat]?).getD ""

end Sys2Proof.Machine
end

