-- ==== Sys2Proof/Safety.lean ====
section
/-! DEFINITION. The observations of a state in which claims are put: the fatal dump (R808), the event
codes (R801), an empty pipeline (R107), and which statuses end a run badly. -/

namespace Sys2Proof.Machine

/-- The values the fatal dump prints, in its order (R808). -/
structure Dump where
  pc         : Word
  gpr        : List Word
  lastBtaken : Bool
  lastBd     : Bool
  lastBtgt   : Word
  deriving DecidableEq, Repr

/-- All 32 register indices, r0 first. -/
def allRegs : List RegIx := (List.range 32).map (BitVec.ofNat 5)

/-- The fatal dump of a state (R808); a model exposes these values of the halted state. -/
def State.fatalDump (s : State) : Dump where
  pc := s.pc
  gpr := allRegs.map s.gpr.read
  lastBtaken := s.lastBtaken
  lastBd := s.lastBd
  lastBtgt := s.lastBtgt

/-- The spec's code of a model fault (R801). -/
def ModelFault.code : ModelFault → Nat
  | .divOverflow _ => 4
  | .misaligned _ => 5
  | .memUnmapped _ => 6

/-- The spec's code of the event a record carries, 0 where it carries none (R801). A trap is code 2
for `syscall` and 3 for `break`. -/
def Record.eventCode (r : Record) : Nat :=
  match r.exc with
  | some (.refuse _) => 7
  | some (.fault f) => f.code
  | none =>
    if r.isIllegal then 1
    else if r.isSyscall then if r.op = .instr .brk then 3 else 2
    else 0

/-- No instruction is in flight (R107). -/
def State.pipelineEmpty (s : State) : Bool := s.idex.isBubble && s.exmem.isBubble && s.memwb.isBubble

/-- The run ended in a way no program wants: halted, faulted or refused (R802, R806, R808). -/
def Status.isBad : Status → Bool
  | .halted _ | .faulted _ | .refused _ => true
  | .running | .exited | .stopped => false

/-- A state of a safe run. -/
def State.safe (s : State) : Bool := !s.status.isBad

/-! ### What is in flight (R104, R107) -/

/-- A register file as it will be once an executed record has committed its general-register result:
unchanged where the record has none or is marked. -/
def Record.overlay (r : Record) (f : RegFile) : RegFile :=
  match r.exc, r.dst with
  | none, .gpr i => f.write i r.result
  | _, _ => f

/-- The same for a record in EXMEM: a load there has no value yet. -/
def Record.overlayExecuted (r : Record) (f : RegFile) : RegFile := if r.isLoad then f else r.overlay f

/-- "The newest value produced by an instruction that has passed Execute (or, for a load, Memory)" (R104). -/
def State.newest (s : State) : RegFile := s.exmem.overlayExecuted (s.memwb.overlay s.gpr)


end Sys2Proof.Machine

namespace Sys2Proof

/-! ### Destinations and memory operands (R421) -/

/-- The general register an instruction writes. -/
def Instr.gprDest : Instr → Option RegIx
  | .add rd _ _ | .addu rd _ _ | .sub rd _ _ | .subu rd _ _ | .and rd _ _ | .or rd _ _ | .xor rd _ _
  | .nor rd _ _ | .slt rd _ _ | .sltu rd _ _ | .sll rd _ _ | .srl rd _ _ | .sra rd _ _
  | .sllv rd _ _ | .srlv rd _ _ | .srav rd _ _ | .mfhi rd | .mflo rd | .jalr rd _ => some rd
  | .addi rt _ _ | .addiu rt _ _ | .slti rt _ _ | .sltiu rt _ _ | .andi rt _ _ | .ori rt _ _
  | .xori rt _ _ | .lui rt _ | .lb rt _ _ | .lbu rt _ _ | .lh rt _ _ | .lhu rt _ _ | .lw rt _ _
  | .lwl rt _ _ | .lwr rt _ _ | .mfc1 rt _ => some rt
  | .bltzal _ _ | .bgezal _ _ | .jal _ => some 31#5
  | .mult .. | .multu .. | .div .. | .divu .. | .mthi .. | .mtlo .. | .beq .. | .bne .. | .blez ..
  | .bgtz .. | .bltz .. | .bgez .. | .j .. | .jr .. | .lwc1 .. | .sb .. | .sh .. | .sw .. | .swc1 ..
  | .swl .. | .swr .. | .syscall | .brk | .mtc1 .. => none

/-- The floating-point register an instruction writes. -/
def Instr.fprDest : Instr → Option RegIx
  | .lwc1 ft _ _ => some ft
  | .mtc1 _ fs => some fs
  | .add .. | .addu .. | .sub .. | .subu .. | .and .. | .or .. | .xor .. | .nor .. | .slt .. | .sltu ..
  | .sll .. | .srl .. | .sra .. | .sllv .. | .srlv .. | .srav .. | .addi .. | .addiu .. | .slti ..
  | .sltiu .. | .andi .. | .ori .. | .xori .. | .lui .. | .mult .. | .multu .. | .div .. | .divu ..
  | .mfhi .. | .mflo .. | .mthi .. | .mtlo .. | .beq .. | .bne .. | .blez .. | .bgtz .. | .bltz ..
  | .bgez .. | .bltzal .. | .bgezal .. | .j .. | .jal .. | .jr .. | .jalr .. | .lb .. | .lbu .. | .lh ..
  | .lhu .. | .lw .. | .lwl .. | .lwr .. | .sb .. | .sh .. | .sw .. | .swc1 .. | .swl .. | .swr ..
  | .syscall | .brk | .mfc1 .. => none

/-- The halves of the Hi/Lo pair an instruction writes: (hi, lo). -/
def Instr.hiloDest : Instr → Bool × Bool
  | .mult .. | .multu .. | .div .. | .divu .. => (true, true)
  | .mthi .. => (true, false)
  | .mtlo .. => (false, true)
  | .add .. | .addu .. | .sub .. | .subu .. | .and .. | .or .. | .xor .. | .nor .. | .slt .. | .sltu ..
  | .sll .. | .srl .. | .sra .. | .sllv .. | .srlv .. | .srav .. | .addi .. | .addiu .. | .slti ..
  | .sltiu .. | .andi .. | .ori .. | .xori .. | .lui .. | .mfhi .. | .mflo .. | .beq .. | .bne ..
  | .blez .. | .bgtz .. | .bltz .. | .bgez .. | .bltzal .. | .bgezal .. | .j .. | .jal .. | .jr ..
  | .jalr .. | .lb .. | .lbu .. | .lh .. | .lhu .. | .lw .. | .lwc1 .. | .lwl .. | .lwr .. | .sb ..
  | .sh .. | .sw .. | .swc1 .. | .swl .. | .swr .. | .syscall | .brk | .mfc1 .. | .mtc1 .. =>
    (false, false)

/-- The access of a memory instruction: its kind, base register and displacement (R650). -/
def Instr.memOperand : Instr → Option (Machine.MemKind × RegIx × Imm16)
  | .lb _ offset rs => some (.lb, rs, offset)
  | .lbu _ offset rs => some (.lbu, rs, offset)
  | .lh _ offset rs => some (.lh, rs, offset)
  | .lhu _ offset rs => some (.lhu, rs, offset)
  | .lw _ offset rs => some (.lw, rs, offset)
  | .lwc1 _ offset rs => some (.lwc1, rs, offset)
  | .lwl _ offset rs => some (.lwl, rs, offset)
  | .lwr _ offset rs => some (.lwr, rs, offset)
  | .sb _ offset rs => some (.sb, rs, offset)
  | .sh _ offset rs => some (.sh, rs, offset)
  | .sw _ offset rs => some (.sw, rs, offset)
  | .swc1 _ offset rs => some (.swc1, rs, offset)
  | .swl _ offset rs => some (.swl, rs, offset)
  | .swr _ offset rs => some (.swr, rs, offset)
  | .add .. | .addu .. | .sub .. | .subu .. | .and .. | .or .. | .xor .. | .nor .. | .slt .. | .sltu ..
  | .sll .. | .srl .. | .sra .. | .sllv .. | .srlv .. | .srav .. | .addi .. | .addiu .. | .slti ..
  | .sltiu .. | .andi .. | .ori .. | .xori .. | .lui .. | .mult .. | .multu .. | .div .. | .divu ..
  | .mfhi .. | .mflo .. | .mthi .. | .mtlo .. | .beq .. | .bne .. | .blez .. | .bgtz .. | .bltz ..
  | .bgez .. | .bltzal .. | .bgezal .. | .j .. | .jal .. | .jr .. | .jalr .. | .syscall | .brk
  | .mfc1 .. | .mtc1 .. => none

/-- The instruction stores. -/
def Instr.stores (i : Instr) : Bool :=
  match i.memOperand with
  | some (k, _, _) => !k.isLoad
  | none => false

end Sys2Proof

namespace Sys2Proof.Machine

/-! ### Memory operands, byte by byte -/

/-- The address a kind needs is a multiple of this (R212). -/
def MemKind.alignment : MemKind → Nat
  | .lb | .lbu | .sb | .lwl | .lwr | .swl | .swr => 1
  | .lh | .lhu | .sh => 2
  | .lw | .lwc1 | .sw | .swc1 => 4

/-- Byte `j` of a word, byte 0 the most significant (R208). -/
def byteOf (v : Word) (j : Nat) : Byte := v.extractLsb' (24 - 8 * j) 8

/-- The byte a store of kind `k` at address `a`, with data `v`, puts at address `b`, if it stores there
(R654, R670 to R675). -/
def storedByte (k : MemKind) (a v : Word) (b : Word) : Option Byte :=
  match k with
  | .sb => if b = a then some (byteOf v 3) else none
  | .sh => if b = a then some (byteOf v 2) else if b = a + 1#32 then some (byteOf v 3) else none
  | .sw | .swc1 => if (b - a).toNat < 4 then some (byteOf v (b - a).toNat) else none
  | .swl =>
    if b.toNat / 4 = a.toNat / 4 ∧ a.toNat ≤ b.toNat then some (byteOf v (b.toNat - a.toNat)) else none
  | .swr =>
    if b.toNat / 4 = a.toNat / 4 ∧ b.toNat ≤ a.toNat then some (byteOf v (3 - (a.toNat - b.toNat))) else none
  | .lb | .lbu | .lh | .lhu | .lw | .lwc1 | .lwl | .lwr => none

/-! ### Runs of several cycles -/

/-- `n` clock cycles; the run stops with the first answer that is no next state. -/
def stepN : Nat → State → Host.Outcome State Fault Refusal
  | 0, s => .next s
  | n + 1, s =>
    match step s with
    | .next t => stepN n t
    | .fault f => .fault f
    | .refused r => .refused r

/-- The run goes on, nothing is in flight and no gate or stall is pending. -/
def State.quiescent (s : State) : Prop :=
  s.status = .running ∧ s.idex = .bubble ∧ s.exmem = .bubble ∧ s.memwb = .bubble ∧
    s.decoderStall = 0 ∧ s.branchStall = false ∧ s.syscallStall = false

/-- Instruction `i` waits in IFID. -/
def State.waiting (s : State) (i : Instr) : Prop :=
  s.ifid.valid = true ∧ s.ifid.ffault = none ∧ decode s.ifid.ins = .ok i

/-! ### What an instruction leaves when it runs alone -/

/-- After any instruction that is no control transfer: the write flags are clear, the branch gate is open
and the next instruction is in no delay slot. -/
def State.retired (s : State) : State :=
  { s with wflag := clearFlags, branchStall := false, bdPending := false }

/-- The same, with a general-register result in both copies (R13, R441, R470). -/
def State.retiredGpr (s : State) (i : RegIx) (v : Word) : State :=
  { s.retired with gpr := s.gpr.write i v, byp := s.byp.write i v }

/-- After a control transfer that stands in no delay slot: its outcome is recorded, a taken one has
redirected fetch, and the next instruction is its delay slot (R428, R443, R444). -/
def State.branched (s : State) (taken : Bool) (tgt : Word) : State :=
  { s.retired with
    bdPending := true
    lastBtaken := taken
    lastBd := false
    lastBtgt := tgt
    pc := if taken then tgt else s.pc }

/-- The same, with a link (R603). -/
def State.branchedLink (s : State) (taken : Bool) (tgt : Word) (i : RegIx) : State :=
  { s.branched taken tgt with
    gpr := s.gpr.write i (s.ifid.insPC + 8#32)
    byp := s.byp.write i (s.ifid.insPC + 8#32) }

/-! ### The invariant of the pipeline -/

/-- A record that is a bubble, a trap or illegal writes nothing and accesses nothing; a bubble has every
effect disabled; a store has no destination (R121, R412, R421). -/
def Record.tagsOk (r : Record) : Prop :=
  (r.isBubble = true → r = .bubble) ∧
    (r.isSyscall = true ∨ r.isIllegal = true → r.dst = .none ∧ r.mem = none) ∧
    (r.isStore = true → r.dst = .none)

/-- A trap is in this record. -/
def Record.trapping (r : Record) : Prop := r.isSyscall = true

/-- What every reachable running state satisfies; the memory part holds of every reachable state. -/
structure State.Inv (s : State) : Prop where
  /-- memory is in its canonical form -/
  memWf : s.mem.wf = true
  /-- (R113) -/
  stallBound : s.decoderStall ≤ 3
  /-- (R121) -/
  idexTags : s.idex.tagsOk
  exmemTags : s.exmem.tagsOk
  memwbTags : s.memwb.tagsOk
  /-- the bypass copy holds the newest values (R104) -/
  bypass : s.status = .running → ∀ i, s.byp.read i = s.newest.read i
  /-- the syscall gate is closed exactly while a trap is in flight (R115) -/
  gate : s.status = .running →
    (s.syscallStall = true ↔ s.idex.trapping ∨ s.exmem.trapping ∨ s.memwb.trapping)
  /-- a trap drains: only bubbles and no fetched word follow it (R811) -/
  drainExmem : s.status = .running → s.exmem.trapping → s.idex = .bubble ∧ s.ifid.valid = false
  drainMemwb : s.status = .running → s.memwb.trapping →
    s.idex = .bubble ∧ s.exmem = .bubble ∧ s.ifid.valid = false
  /-- a trap is issued without a stall, and no stall begins while it drains (R813) -/
  drainStall : s.status = .running → s.idex.trapping ∨ s.exmem.trapping ∨ s.memwb.trapping →
    s.decoderStall = 0
  /-- the branch gate is closed exactly behind a control transfer, whose delay slot is then due (R114, R116) -/
  branchGate : s.status = .running → s.branchStall = s.idex.isCT
  slotDue : s.status = .running → s.idex.isCT = true → s.bdPending = true
  /-- outside a delay slot, fetch has gone exactly one word past the waiting one (R110, R111) -/
  waitingPC : s.status = .running → s.ifid.valid = true → s.bdPending = false →
    s.pc = s.ifid.insPC + 4#32
  /-- without a fetch budget, fetch stands two words past a trap (R814) -/
  trapPC : s.status = .running → s.params.fetchBudget = none →
    (∀ r, r = s.idex ∨ r = s.exmem ∨ r = s.memwb → r.trapping → s.pc = r.insPC + 8#32)

end Sys2Proof.Machine
end

