-- ==== Sys2Proof/Certificates/Slice0/Obligations.lean ====
section
/-! DEFINITION. The statements for the provers. Words used in them (`retired`, `branched`, `quiescent`,
`waiting`, `storedByte`, `State.Inv` …) are defined in Safety.lean. -/

open Sys2Proof Sys2Proof.Machine

/-! ## Encoding -/

/-- R301 to R314: decoding the word of any well-formed instruction gives it back, with every operand at
every value. -/
def Obligations.DecodeEncodeAgree : Prop :=
  ∀ i : Instr, i.wellFormed = true → decode (encode i) = .ok i

/-- R311 to R314, R320: the words that are no instruction are exactly those whose opcode, function, REGIMM
`rt` or COP1 `fmt` selects nothing in the maps, and what decodes is well formed. -/
def Obligations.IllegalEncodingsAreTheRest : Prop :=
  ∀ w : Word,
    ((∃ i, decode w = .ok i ∧ i.wellFormed = true) ↔
      ((opcodeOf w).toNat = 0x00 ∧
          (functOf w).toNat ∈ [0x00, 0x02, 0x03, 0x04, 0x06, 0x07, 0x08, 0x09, 0x0c, 0x0d, 0x10, 0x11, 0x12,
            0x13, 0x18, 0x19, 0x1a, 0x1b, 0x20, 0x21, 0x22, 0x23, 0x24, 0x25, 0x26, 0x27, 0x2a, 0x2b]) ∨
        ((opcodeOf w).toNat = 0x01 ∧ (rtOf w).toNat ∈ [0x00, 0x01, 0x10, 0x11]) ∨
        ((opcodeOf w).toNat = 0x11 ∧ (rsOf w).toNat ∈ [0x00, 0x04]) ∨
        (opcodeOf w).toNat ∈ [0x02, 0x03, 0x04, 0x05, 0x06, 0x07, 0x08, 0x09, 0x0a, 0x0b, 0x0c, 0x0d, 0x0e,
          0x0f, 0x20, 0x21, 0x22, 0x23, 0x24, 0x25, 0x26, 0x28, 0x29, 0x2a, 0x2b, 0x2e, 0x31, 0x39]) ∧
    ((∃ e, decode w = .error e) ↔ ¬ ∃ i, decode w = .ok i)

/-- R510, R520, R537, R560, R610, R613, R621, R664, R700, R711: words written out from the encodings. -/
def Obligations.WordsOfTheSpec : Prop :=
  decode 0b000000_00001_00010_00011_00000_100000#32 = .ok (.add 3#5 1#5 2#5) ∧
  decode 0b000000_00000_00010_00011_11111_000000#32 = .ok (.sll 3#5 2#5 31) ∧
  decode 0b001111_00000_00101_1010101010101010#32 = .ok (.lui 5#5 0xaaaa#16) ∧
  decode 0b000000_00001_00010_00000_00000_011000#32 = .ok (.mult 1#5 2#5) ∧
  decode 0b000100_00001_00010_1111111111111111#32 = .ok (.beq 1#5 2#5 0xffff#16) ∧
  decode 0b000111_00001_00000_0000000000000011#32 = .ok (.bgtz 1#5 3#16) ∧
  decode 0b000011_00000100000000000000010000#32 = .ok (.jal 0x0100010#26) ∧
  decode 0b100011_00010_00001_0000000000000100#32 = .ok (.lw 1#5 4#16 2#5) ∧
  decode 0b000000_00000000000000000000_001100#32 = .ok .syscall ∧
  decode 0b010001_00000_00100_00011_00000000000#32 = .ok (.mfc1 4#5 3#5)

/-- R208, R209, R300: an instruction is four bytes, the most significant at the lowest address; any other
number of bytes is rejected. -/
def Obligations.InstructionBytesAreBigEndian : Prop :=
  (∀ w : Word, decodeBytes (bytesOfWord w) = decode w) ∧
    ∀ l : List Byte, l.length ≠ 4 → decodeBytes l = .error .notFourBytes

/-- R305, R306, R341: a branch or jump written with a label it can reach goes to that label. -/
def Obligations.LabelsAreReached : Prop :=
  ∀ insPC label : Word,
    (branchReaches insPC label = true → branchTarget insPC (branchField insPC label) = label) ∧
      (jumpReaches insPC label = true → jumpTarget insPC (jumpField label) = label)

/-! ## Results, and that each instruction completes -/

/-- R510 to R519: encoding (function number, opcode 0, the shift-amount field ignored), result and
completion of the ten register-register operations. Nothing else changes. -/
def Obligations.RegisterRegisterResults : Prop :=
  ∀ row ∈ ([(0x20#6, Instr.add, fun a b => a + b), (0x21#6, Instr.addu, fun a b => a + b),
      (0x22#6, Instr.sub, fun a b => a - b), (0x23#6, Instr.subu, fun a b => a - b),
      (0x24#6, Instr.and, fun a b => a &&& b), (0x25#6, Instr.or, fun a b => a ||| b),
      (0x26#6, Instr.xor, fun a b => a ^^^ b), (0x27#6, Instr.nor, fun a b => ~~~(a ||| b)),
      (0x2a#6, Instr.slt, fun a b => if a.toInt < b.toInt then 1#32 else 0#32),
      (0x2b#6, Instr.sltu, fun a b => if a.toNat < b.toNat then 1#32 else 0#32)] :
        List (BitVec 6 × (RegIx → RegIx → RegIx → Instr) × (Word → Word → Word))),
    ∀ rs rt rd shamt : RegIx,
      decode (rFormat 0x00#6 rs rt rd shamt row.1) = .ok (row.2.1 rd rs rt) ∧
      ∀ s : State, s.status = .running →
        exec (row.2.1 rd rs rt) s = .next (s.retiredGpr rd (row.2.2 (s.byp.read rs) (s.byp.read rt)))

/-- R520 to R525: the six shifts. The immediate ones ignore the `rs` field, the variable ones the
shift-amount field, and take their amount from the low five bits of x[rs]. -/
def Obligations.ShiftResults : Prop :=
  (∀ row ∈ ([(0x00#6, Instr.sll, fun a n => a <<< n), (0x02#6, Instr.srl, fun a n => a >>> n),
      (0x03#6, Instr.sra, fun a n => a.sshiftRight n)] :
        List (BitVec 6 × (RegIx → RegIx → Nat → Instr) × (Word → Nat → Word))),
    ∀ rs rt rd shamt : RegIx,
      decode (rFormat 0x00#6 rs rt rd shamt row.1) = .ok (row.2.1 rd rt shamt.toNat) ∧
      ∀ s : State, s.status = .running → ∀ n : Nat,
        exec (row.2.1 rd rt n) s = .next (s.retiredGpr rd (row.2.2 (s.byp.read rt) n))) ∧
  (∀ row ∈ ([(0x04#6, Instr.sllv, fun a n => a <<< n), (0x06#6, Instr.srlv, fun a n => a >>> n),
      (0x07#6, Instr.srav, fun a n => a.sshiftRight n)] :
        List (BitVec 6 × (RegIx → RegIx → RegIx → Instr) × (Word → Nat → Word))),
    ∀ rs rt rd shamt : RegIx,
      decode (rFormat 0x00#6 rs rt rd shamt row.1) = .ok (row.2.1 rd rt rs) ∧
      ∀ s : State, s.status = .running →
        exec (row.2.1 rd rt rs) s =
          .next (s.retiredGpr rd (row.2.2 (s.byp.read rt) ((s.byp.read rs).toNat % 32))))

/-- R530 to R537: the register-immediate operations, with the extension each gives its immediate; `lui`
ignores its `rs` field. -/
def Obligations.RegisterImmediateResults : Prop :=
  (∀ (rs rt : RegIx) (imm : Imm16),
    decode (iFormat 0x0f#6 rs rt imm) = .ok (.lui rt imm) ∧
    ∀ s : State, s.status = .running → exec (.lui rt imm) s = .next (s.retiredGpr rt (imm ++ 0x0000#16))) ∧
  ∀ row ∈ ([(0x08#6, Instr.addi, fun a n => a + n.signExtend 32),
      (0x09#6, Instr.addiu, fun a n => a + n.signExtend 32),
      (0x0a#6, Instr.slti, fun a n => if a.toInt < n.toInt then 1#32 else 0#32),
      (0x0b#6, Instr.sltiu, fun a n => if a.toNat < (n.signExtend 32).toNat then 1#32 else 0#32),
      (0x0c#6, Instr.andi, fun a n => a &&& n.zeroExtend 32),
      (0x0d#6, Instr.ori, fun a n => a ||| n.zeroExtend 32),
      (0x0e#6, Instr.xori, fun a n => a ^^^ n.zeroExtend 32)] :
        List (BitVec 6 × (RegIx → RegIx → Imm16 → Instr) × (Word → Imm16 → Word))),
    ∀ (rs rt : RegIx) (imm : Imm16),
      decode (iFormat row.1 rs rt imm) = .ok (row.2.1 rt rs imm) ∧
      ∀ s : State, s.status = .running →
        exec (row.2.1 rt rs imm) s = .next (s.retiredGpr rt (row.2.2 (s.byp.read rs) imm))

/-- R560, R561: the product is exact; its halves go to `hi` and `lo`. -/
def Obligations.MultiplyResults : Prop :=
  ∀ rs rt rd shamt : RegIx,
    decode (rFormat 0x00#6 rs rt rd shamt 0x18#6) = .ok (.mult rs rt) ∧
    decode (rFormat 0x00#6 rs rt rd shamt 0x19#6) = .ok (.multu rs rt) ∧
    ∀ s : State, s.status = .running →
      (∃ t, exec (.mult rs rt) s = .next t ∧ t = { s.retired with hi := t.hi, lo := t.lo } ∧
        (t.hi ++ t.lo).toInt = (s.byp.read rs).toInt * (s.byp.read rt).toInt) ∧
      (∃ t, exec (.multu rs rt) s = .next t ∧ t = { s.retired with hi := t.hi, lo := t.lo } ∧
        (t.hi ++ t.lo).toNat = (s.byp.read rs).toNat * (s.byp.read rt).toNat)

/-- R562, R804: `div` by zero, the overflow under both values of DIV_OVERFLOW, and every other case: the
quotient truncates toward zero and the remainder satisfies dividend = divisor * quotient + remainder. -/
def Obligations.SignedDivideResults : Prop :=
  ∀ rs rt rd shamt : RegIx, decode (rFormat 0x00#6 rs rt rd shamt 0x1a#6) = .ok (.div rs rt) ∧
  ∀ s : State, s.status = .running →
    (s.byp.read rt = 0#32 →
      exec (.div rs rt) s = .next { s.retired with hi := 0x7fffffff#32, lo := 0x7fffffff#32 }) ∧
    (s.byp.read rs = 0x80000000#32 → s.byp.read rt = 0xffffffff#32 →
      (s.params.divOverflow = .fault →
        exec (.div rs rt) s = .next { s.retired with status := .faulted (.divOverflow s.ifid.insPC) }) ∧
      ∀ h l, s.params.divOverflow = .value h l →
        exec (.div rs rt) s = .next { s.retired with hi := h, lo := l }) ∧
    (s.byp.read rt ≠ 0#32 → ¬(s.byp.read rs = 0x80000000#32 ∧ s.byp.read rt = 0xffffffff#32) →
      ∃ t, exec (.div rs rt) s = .next t ∧ t = { s.retired with hi := t.hi, lo := t.lo } ∧
        t.lo.toInt = (s.byp.read rs).toInt.tdiv (s.byp.read rt).toInt ∧
        t.hi.toInt = (s.byp.read rs).toInt - (s.byp.read rt).toInt * t.lo.toInt)

/-- R563, R804: `divu`, by zero and otherwise. -/
def Obligations.UnsignedDivideResults : Prop :=
  ∀ rs rt rd shamt : RegIx, decode (rFormat 0x00#6 rs rt rd shamt 0x1b#6) = .ok (.divu rs rt) ∧
  ∀ s : State, s.status = .running →
    (s.byp.read rt = 0#32 →
      exec (.divu rs rt) s = .next { s.retired with hi := 0x7fffffff#32, lo := 0x7fffffff#32 }) ∧
    (s.byp.read rt ≠ 0#32 →
      ∃ t, exec (.divu rs rt) s = .next t ∧ t = { s.retired with hi := t.hi, lo := t.lo } ∧
        t.lo.toNat = (s.byp.read rs).toNat / (s.byp.read rt).toNat ∧
        t.hi.toNat = (s.byp.read rs).toNat % (s.byp.read rt).toNat)

/-- R570 to R573: the Hi/Lo moves; `mthi` leaves `lo` and `mtlo` leaves `hi`. -/
def Obligations.HiLoMoveResults : Prop :=
  ∀ rs rt rd shamt : RegIx,
    decode (rFormat 0x00#6 rs rt rd shamt 0x10#6) = .ok (.mfhi rd) ∧
    decode (rFormat 0x00#6 rs rt rd shamt 0x12#6) = .ok (.mflo rd) ∧
    decode (rFormat 0x00#6 rs rt rd shamt 0x11#6) = .ok (.mthi rs) ∧
    decode (rFormat 0x00#6 rs rt rd shamt 0x13#6) = .ok (.mtlo rs) ∧
    ∀ s : State, s.status = .running →
      exec (.mfhi rd) s = .next (s.retiredGpr rd s.hi) ∧
      exec (.mflo rd) s = .next (s.retiredGpr rd s.lo) ∧
      exec (.mthi rs) s = .next { s.retired with hi := s.byp.read rs } ∧
      exec (.mtlo rs) s = .next { s.retired with lo := s.byp.read rs }

/-- R610 to R615: the conditional branches that do not link, outside a delay slot: condition, target, and
what they record. The `rt` field of `blez` and `bgtz` is ignored. -/
def Obligations.BranchResults : Prop :=
  ∀ (rs rt : RegIx) (offset : Imm16),
    decode (iFormat 0x04#6 rs rt offset) = .ok (.beq rs rt offset) ∧
    decode (iFormat 0x05#6 rs rt offset) = .ok (.bne rs rt offset) ∧
    decode (iFormat 0x06#6 rs rt offset) = .ok (.blez rs offset) ∧
    decode (iFormat 0x07#6 rs rt offset) = .ok (.bgtz rs offset) ∧
    decode (iFormat 0x01#6 rs 0x00#5 offset) = .ok (.bltz rs offset) ∧
    decode (iFormat 0x01#6 rs 0x01#5 offset) = .ok (.bgez rs offset) ∧
    ∀ s : State, s.status = .running → s.bdPending = false →
      let a := s.byp.read rs
      let b := s.byp.read rt
      let tgt := s.ifid.insPC + 4#32 + (offset.signExtend 32 <<< 2)
      exec (.beq rs rt offset) s = .next (s.branched (decide (a = b)) tgt) ∧
      exec (.bne rs rt offset) s = .next (s.branched (decide (a ≠ b)) tgt) ∧
      exec (.blez rs offset) s = .next (s.branched (decide (a.toInt ≤ 0)) tgt) ∧
      exec (.bgtz rs offset) s = .next (s.branched (decide (a.toInt > 0)) tgt) ∧
      exec (.bltz rs offset) s = .next (s.branched (decide (a.toInt < 0)) tgt) ∧
      exec (.bgez rs offset) s = .next (s.branched (decide (a.toInt ≥ 0)) tgt)

/-- R603, R616, R617: the linking branches write r31 whether or not they are taken, and test the old
value of their register. -/
def Obligations.LinkingBranchResults : Prop :=
  ∀ (rs : RegIx) (offset : Imm16),
    decode (iFormat 0x01#6 rs 0x10#5 offset) = .ok (.bltzal rs offset) ∧
    decode (iFormat 0x01#6 rs 0x11#5 offset) = .ok (.bgezal rs offset) ∧
    ∀ s : State, s.status = .running → s.bdPending = false →
      let a := s.byp.read rs
      let tgt := s.ifid.insPC + 4#32 + (offset.signExtend 32 <<< 2)
      exec (.bltzal rs offset) s = .next (s.branchedLink (decide (a.toInt < 0)) tgt 31#5) ∧
      exec (.bgezal rs offset) s = .next (s.branchedLink (decide (a.toInt ≥ 0)) tgt 31#5)

/-- R603, R620 to R623: the jumps are always taken; `jal` links r31 and `jalr` links rd, after its target
was read. Unused fields are ignored. -/
def Obligations.JumpResults : Prop :=
  ∀ (target : Target26) (rs rt rd shamt : RegIx),
    decode (jFormat 0x02#6 target) = .ok (.j target) ∧
    decode (jFormat 0x03#6 target) = .ok (.jal target) ∧
    decode (rFormat 0x00#6 rs rt rd shamt 0x08#6) = .ok (.jr rs) ∧
    decode (rFormat 0x00#6 rs rt rd shamt 0x09#6) = .ok (.jalr rd rs) ∧
    ∀ s : State, s.status = .running → s.bdPending = false →
      let tgt := (s.ifid.insPC + 4#32).extractLsb' 28 4 ++ target ++ 0b00#2
      exec (.j target) s = .next (s.branched true tgt) ∧
      exec (.jal target) s = .next (s.branchedLink true tgt 31#5) ∧
      exec (.jr rs) s = .next (s.branched true (s.byp.read rs)) ∧
      exec (.jalr rd rs) s = .next (s.branchedLink true (s.byp.read rs) rd)

/-- R660 to R664, R652: the plain loads, at an address they may access. -/
def Obligations.LoadResults : Prop :=
  ∀ row ∈ ([(0x20#6, Instr.lb, 1, fun m a => (m.read a).signExtend 32),
      (0x24#6, Instr.lbu, 1, fun m a => (m.read a).zeroExtend 32),
      (0x21#6, Instr.lh, 2, fun m a => (m.read a ++ m.read (a + 1#32)).signExtend 32),
      (0x25#6, Instr.lhu, 2, fun m a => (m.read a ++ m.read (a + 1#32)).zeroExtend 32),
      (0x23#6, Instr.lw, 4, fun m a =>
        m.read a ++ m.read (a + 1#32) ++ m.read (a + 2#32) ++ m.read (a + 3#32))] :
        List (BitVec 6 × (RegIx → Imm16 → RegIx → Instr) × Nat × (Memory → Word → Word))),
    ∀ (rs rt : RegIx) (offset : Imm16),
      decode (iFormat row.1 rs rt offset) = .ok (row.2.1 rt offset rs) ∧
      ∀ s : State, s.status = .running →
        let a := s.byp.read rs + offset.signExtend 32
        a.toNat % row.2.2.1 = 0 → mapped s.params a = true →
          exec (row.2.1 rt offset rs) s = .next (s.retiredGpr rt (row.2.2.2 s.mem a))

/-- R654, R666, R667: the partial-word loads merge with the old register, at any mapped address. -/
def Obligations.PartialLoadResults : Prop :=
  ∀ (rs rt : RegIx) (offset : Imm16),
    decode (iFormat 0x22#6 rs rt offset) = .ok (.lwl rt offset rs) ∧
    decode (iFormat 0x26#6 rs rt offset) = .ok (.lwr rt offset rs) ∧
    ∀ s : State, s.status = .running →
      let a := s.byp.read rs + offset.signExtend 32
      let k := a.toNat % 4
      let w := s.mem.read32 (a &&& ~~~3#32)
      let old := s.byp.read rt
      mapped s.params a = true →
        exec (.lwl rt offset rs) s =
          .next (s.retiredGpr rt ((w <<< (8 * k)) ||| (old &&& ((1#32 <<< (8 * k)) - 1#32)))) ∧
        exec (.lwr rt offset rs) s =
          .next (s.retiredGpr rt
            ((w >>> (8 * (3 - k))) ||| (old &&& ~~~(0xffffffff#32 >>> (8 * (3 - k))))))

/-- R455, R665: `lwc1` writes the floating-point register and nothing else. -/
def Obligations.FloatLoadResult : Prop :=
  ∀ (rs ft : RegIx) (offset : Imm16),
    decode (iFormat 0x31#6 rs ft offset) = .ok (.lwc1 ft offset rs) ∧
    ∀ s : State, s.status = .running →
      let a := s.byp.read rs + offset.signExtend 32
      let v := s.mem.read a ++ s.mem.read (a + 1#32) ++ s.mem.read (a + 2#32) ++ s.mem.read (a + 3#32)
      a.toNat % 4 = 0 → mapped s.params a = true →
        exec (.lwc1 ft offset rs) s = .next { s.retired with fpr := s.fpr.writeF ft v }

/-- R653, R654, R670 to R675: the six stores, at an address they may access, byte by byte: the bytes
stored, and that every other byte of memory reads as before. Only memory changes. -/
def Obligations.StoreResults : Prop :=
  ∀ row ∈ ([(0x28#6, Instr.sb, MemKind.sb), (0x29#6, Instr.sh, MemKind.sh), (0x2b#6, Instr.sw, MemKind.sw),
      (0x2a#6, Instr.swl, MemKind.swl), (0x2e#6, Instr.swr, MemKind.swr),
      (0x39#6, Instr.swc1, MemKind.swc1)] :
        List (BitVec 6 × (RegIx → Imm16 → RegIx → Instr) × MemKind)),
    ∀ (rs rt : RegIx) (offset : Imm16),
      decode (iFormat row.1 rs rt offset) = .ok (row.2.1 rt offset rs) ∧
      ∀ s : State, s.status = .running → s.mem.wf = true →
        let a := s.byp.read rs + offset.signExtend 32
        let v := if row.2.2 = .swc1 then s.fpr.readF rt else s.byp.read rt
        a.toNat % row.2.2.alignment = 0 → mapped s.params a = true →
          ∃ t, exec (row.2.1 rt offset rs) s = .next t ∧ t = { s.retired with mem := t.mem } ∧
            ∀ b : Word, t.mem.read b = (storedByte row.2.2 a v b).getD (s.mem.read b)

/-- R711, R712: the floating-point moves copy bits; bits 10:0 are ignored. -/
def Obligations.FloatMoveResults : Prop :=
  ∀ (rt fs shamt : RegIx) (fn : BitVec 6),
    decode (rFormat 0x11#6 0x00#5 rt fs shamt fn) = .ok (.mfc1 rt fs) ∧
    decode (rFormat 0x11#6 0x04#5 rt fs shamt fn) = .ok (.mtc1 rt fs) ∧
    ∀ s : State, s.status = .running →
      exec (.mfc1 rt fs) s = .next (s.retiredGpr rt (s.fpr.readF fs)) ∧
      exec (.mtc1 rt fs) s = .next { s.retired with fpr := s.fpr.writeF fs (s.byp.read rt) }

/-! ## Traps, illegal operations, faults and refusals -/

/-- R322, R700, R701, R810 to R814, R816: `syscall` and `break` are selected by their function number alone,
and their trap (of `break` under BREAK_MODE = trap), outside a delay slot: what the emulator is given, what it may change, and where fetch resumes. The word fetched
behind the trap is discarded. With a scripted answer waiting that answer is taken, else the parameter's (the
model's choice, log entry 5); what the emulator wrote stays when it ends the run (log entry 9). -/
def Obligations.TrapResults : Prop :=
  (∀ rs rt rd shamt : RegIx,
    decode (rFormat 0x00#6 rs rt rd shamt 0x0c#6) = .ok .syscall ∧
      decode (rFormat 0x00#6 rs rt rd shamt 0x0d#6) = .ok .brk) ∧
  ∀ i : Instr, i = .syscall ∨ i = .brk → ∀ s : State, s.status = .running → s.bdPending = false →
    s.branchStall = false → s.budgetSpent = false → i.isTrap s.params.breakMode = true →
    let r := match s.sysReplies with
      | r :: _ => r
      | [] => Config.sysHandler { gpr := s.gpr, mem := s.mem, os := s.os, ins := s.ifid.ins }
    let t := { s.retired with
      gpr := s.gpr.writeAll r.regs
      mem := s.mem.writeAll r.bytes
      os := r.os
      sysReplies := s.sysReplies.tail
      ifid := .empty }
    exec i s =
      .next (if r.leaves then { t with status := .exited, pc := s.pc + 4#32, syscallStall := true }
        else { t with
          pc := if s.params.syscallResume = .after then s.pc else s.ifid.insPC
          byp := s.gpr.writeAll r.regs
          syscallStall := false })

/-- R323, R701, R808: under BREAK_MODE = illegal, `break` halts the core; it changes nothing else, and the
record of the halt has its word and its address. That its `op` is Illegal is read from
R421's table (log entry 12). -/
def Obligations.BreakCanBeIllegal : Prop :=
  ∀ s : State, s.status = .running → s.params.breakMode = .illegal →
    ∃ r : Record, exec .brk s = .next { s.retired with status := .halted r } ∧ r.op = .illegal ∧
      r.ins = s.ifid.ins ∧ r.insPC = s.ifid.insPC

/-- R428, R602, R806: a control transfer, a syscall or a trapping break in a delay slot is refused and has
no effect; every other instruction may stand there. -/
def Obligations.DelaySlotRefusals : Prop :=
  ∀ (i : Instr) (s : State), s.status = .running → s.bdPending = true →
    (i.delaySlotOk s.params.breakMode = false →
      exec i s = .next { s.retired with status := .refused .delaySlotControl }) ∧
    (i.delaySlotOk s.params.breakMode = true →
      ∃ t, exec i s = .next t ∧ t.status ≠ .refused .delaySlotControl)

/-- R211, R212, R651, R802, R820: a memory instruction at an address of the wrong alignment, or at one
that is not mapped, ends the run with that address; alignment is checked first; nothing is read or written. -/
def Obligations.AccessFaults : Prop :=
  ∀ (i : Instr) (k : MemKind) (rs : RegIx) (offset : Imm16), i.memOperand = some (k, rs, offset) →
    ∀ s : State, s.status = .running →
      let a := s.byp.read rs + offset.signExtend 32
      (a.toNat % k.alignment ≠ 0 →
        exec i s = .next { s.retired with status := .faulted (.misaligned a) }) ∧
      (a.toNat % k.alignment = 0 → mapped s.params a = false →
        exec i s = .next { s.retired with status := .faulted (.memUnmapped a) })

/-! ## Frames -/

/-- R13, R421, R500, R550, R600, R652, R653: what an instruction that does not trap leaves as it was: every
general register but its destination, in both copies; every floating-point register but its destination;
the halves of Hi/Lo it does not write; `os`, the parameters and everything of the pipeline; `pc` and the
last-branch fields but for a control transfer. -/
def Obligations.RegisterFrame : Prop :=
  ∀ (i : Instr) (s t : State), exec i s = .next t → i.isTrap s.params.breakMode = false →
    (∀ r, i.gprDest ≠ some r → t.gpr.read r = s.gpr.read r ∧ t.byp.read r = s.byp.read r) ∧
    (∀ r, i.fprDest ≠ some r → t.fpr.readF r = s.fpr.readF r) ∧
    (i.hiloDest.1 = false → t.hi = s.hi) ∧ (i.hiloDest.2 = false → t.lo = s.lo) ∧
    (i.isControlTransfer = false → t.pc = s.pc ∧ t.lastBtaken = s.lastBtaken ∧ t.lastBd = s.lastBd ∧
      t.lastBtgt = s.lastBtgt) ∧
    t.os = s.os ∧ t.params = s.params ∧ t.sysReplies = s.sysReplies ∧ t.nfetched = s.nfetched ∧
    t.draws = s.draws ∧ t.decoderStall = s.decoderStall ∧ t.syscallStall = s.syscallStall ∧
    t.ifid = s.ifid ∧ t.idex = s.idex ∧ t.exmem = s.exmem ∧ t.memwb = s.memwb

/-- R653, R654, R670 to R675, R215: no byte of memory changes but those a store stores to; the address of
the store is the base register plus the displacement. -/
def Obligations.MemoryFrame : Prop :=
  ∀ (i : Instr) (s t : State), exec i s = .next t → i.isTrap s.params.breakMode = false →
    s.mem.wf = true →
    (i.stores = false → ∀ b : Word, t.mem.read b = s.mem.read b) ∧
    ∀ (k : MemKind) (rs : RegIx) (offset : Imm16), i.memOperand = some (k, rs, offset) →
      ∀ b v : Word, storedByte k (effectiveAddress (s.byp.read rs) offset) v b = none →
        t.mem.read b = s.mem.read b

/-- R102: register 0 reads as zero, a write to it is discarded, and a write to any other register is read
back; the floating-point registers have no such register (R108). -/
def Obligations.RegisterZero : Prop :=
  ∀ (f : RegFile) (i j : RegIx) (v : Word),
    f.read 0#5 = 0#32 ∧ f.write 0#5 v = f ∧ (i ≠ 0#5 → (f.write i v).read i = v) ∧
    (i ≠ j → (f.write i v).read j = f.read j) ∧ (f.writeF i v).readF i = v ∧
    (i ≠ j → (f.writeF i v).readF j = f.readF j)

/-! ## Memory -/

/-- R203 to R206, R213: a byte, halfword or word access is one access of the aligned 8-byte word. -/
def Obligations.AccessesAreDoublewordAccesses : Prop :=
  ∀ (m : Memory) (a : Word), m.wf = true →
    (m.read a = getByte a (m.readDouble a) ∧
      ∀ v : Byte, m.write a v = m.writeDouble a (setByte a (m.readDouble a) v)) ∧
    (a.toNat % 2 = 0 → m.read16 a = getHalfWord a (m.readDouble a) ∧
      ∀ v, m.write16 a v = m.writeDouble a (setHalfWord a (m.readDouble a) v)) ∧
    (a.toNat % 4 = 0 → m.read32 a = getWord a (m.readDouble a) ∧
      ∀ v, m.write32 a v = m.writeDouble a (setWord a (m.readDouble a) v))

/-- R208, R210: after `sw` of v at A, `lbu` at A+i gives v's byte i, and `lhu` at A+2j its halfword j. -/
def Obligations.MixedWidthAccesses : Prop :=
  ∀ (s t u : State) (rt rs r b : RegIx) (offset o : Imm16) (j : Nat), s.mem.wf = true →
    exec (.sw rt offset rs) s = .next t → t.status = .running → r ≠ 0#5 →
    let a := effectiveAddress (s.byp.read rs) offset
    let v := s.byp.read rt
    (j < 4 → effectiveAddress (t.byp.read b) o = a + BitVec.ofNat 32 j →
      exec (.lbu r o b) t = .next u → u.status = .running →
        u.gpr.read r = (v.extractLsb' (24 - 8 * j) 8).zeroExtend 32) ∧
    (j < 2 → effectiveAddress (t.byp.read b) o = a + BitVec.ofNat 32 (2 * j) →
      exec (.lhu r o b) t = .next u → u.status = .running →
        u.gpr.read r = (v.extractLsb' (16 - 16 * j) 16).zeroExtend 32)

/-- R655: `lwl` at X then `lwr` at X+3 loads the four bytes at X to X+3, whatever X is. -/
def Obligations.PartialLoadPair : Prop :=
  ∀ (s t u : State) (rt rs rs' : RegIx) (o o' : Imm16) (x : Word), rt ≠ 0#5 →
    effectiveAddress (s.byp.read rs) o = x → exec (.lwl rt o rs) s = .next t → t.status = .running →
    effectiveAddress (t.byp.read rs') o' = x + 3#32 → exec (.lwr rt o' rs') t = .next u →
    u.status = .running →
      u.gpr.read rt = s.mem.read x ++ s.mem.read (x + 1#32) ++ s.mem.read (x + 2#32) ++ s.mem.read (x + 3#32)

/-- R655: `swl` at X then `swr` at X+3 stores the four bytes of the register at X to X+3, and no other. -/
def Obligations.PartialStorePair : Prop :=
  ∀ (s t u : State) (rt rs rs' : RegIx) (o o' : Imm16) (x : Word), s.mem.wf = true →
    effectiveAddress (s.byp.read rs) o = x → exec (.swl rt o rs) s = .next t → t.status = .running →
    effectiveAddress (t.byp.read rs') o' = x + 3#32 → exec (.swr rt o' rs') t = .next u →
    u.status = .running →
      ∀ b : Word, u.mem.read b =
        if (b - x).toNat < 4 then (s.byp.read rt).extractLsb' (24 - 8 * (b - x).toNat) 8 else s.mem.read b

/-! ## Hazards -/

/-- R422 to R427: the number of bubbles an instruction waits, from what stands in Execute, Memory and
Writeback: for `mfhi` and `mflo`, for a store (by base and data register), and for the rest. -/
def Obligations.HazardCounts : Prop :=
  ∀ (p : Params) (i : Instr) (e m w : Record),
    let h := handlerOf p i
    let hilo (r : Record) : Prop := ∃ a b, r.dst = .hilo a b
    let reads (r : Record) : Prop :=
      (∃ j, j ≠ 0#5 ∧ r.dst = .gpr j ∧ Src.g j ∈ h.sources) ∨ ∃ j, r.dst = .fpr j ∧ Src.f j ∈ h.sources
    (∀ rd, i = .mfhi rd ∨ i = .mflo rd →
      (hilo e → hazard h e m w = 4) ∧ (¬hilo e → hilo m → hazard h e m w = 3) ∧
      (¬hilo e → ¬hilo m → hilo w → hazard h e m w = 2) ∧
      (¬hilo e → ¬hilo m → ¬hilo w → hazard h e m w = 0)) ∧
    (i.stores = true →
      (reads e → hazard h e m w = 4) ∧ (¬reads e → reads m → hazard h e m w = 3) ∧
      (¬reads e → ¬reads m → reads w → hazard h e m w = 2) ∧
      (¬reads e → ¬reads m → ¬reads w → hazard h e m w = 0)) ∧
    (i.stores = false → (∀ rd, i ≠ .mfhi rd ∧ i ≠ .mflo rd) →
      (e.isLoad = true ∧ reads e → hazard h e m w = 2) ∧
      (¬(e.isLoad = true ∧ reads e) → hazard h e m w = 0))

/-- R421: sources, destination, memory kind, control-transfer and trap flags of every instruction. -/
def Obligations.SourcesAndDestinations : Prop :=
  ∀ (p : Params) (a b c : RegIx) (n : Imm16) (t : Target26) (sh : Nat),
    let row (i : Instr) := ((handlerOf p i).sources, (handlerOf p i).dst, (handlerOf p i).mem,
      (handlerOf p i).isCT, (handlerOf p i).isSyscall)
    (∀ i ∈ [Instr.add c a b, .addu c a b, .sub c a b, .subu c a b, .and c a b, .or c a b, .xor c a b,
      .nor c a b, .slt c a b, .sltu c a b, .sllv c b a, .srlv c b a, .srav c b a],
      row i = ([.g a, .g b], .gpr c, none, false, false)) ∧
    (∀ i ∈ [Instr.sll c b sh, .srl c b sh, .sra c b sh], row i = ([.g b], .gpr c, none, false, false)) ∧
    (∀ i ∈ [Instr.addi b a n, .addiu b a n, .slti b a n, .sltiu b a n, .andi b a n, .ori b a n, .xori b a n],
      row i = ([.g a], .gpr b, none, false, false)) ∧
    row (.lui b n) = ([], .gpr b, none, false, false) ∧
    (∀ i ∈ [Instr.mult a b, .multu a b, .div a b, .divu a b],
      row i = ([.g a, .g b], .hilo true true, none, false, false)) ∧
    (∀ i ∈ [Instr.mfhi c, .mflo c], row i = ([.hilo], .gpr c, none, false, false)) ∧
    row (.mthi a) = ([.g a], .hilo true false, none, false, false) ∧
    row (.mtlo a) = ([.g a], .hilo false true, none, false, false) ∧
    (∀ i ∈ [Instr.beq a b n, .bne a b n], row i = ([.g a, .g b], .none, none, true, false)) ∧
    (∀ i ∈ [Instr.blez a n, .bgtz a n, .bltz a n, .bgez a n, .jr a],
      row i = ([.g a], .none, none, true, false)) ∧
    (∀ i ∈ [Instr.bltzal a n, .bgezal a n], row i = ([.g a], .gpr 31#5, none, true, false)) ∧
    row (.j t) = ([], .none, none, true, false) ∧
    row (.jal t) = ([], .gpr 31#5, none, true, false) ∧
    row (.jalr c a) = ([.g a], .gpr c, none, true, false) ∧
    (∀ x ∈ [(Instr.lb b n a, MemKind.lb), (.lbu b n a, .lbu), (.lh b n a, .lh), (.lhu b n a, .lhu),
      (.lw b n a, .lw)], row x.1 = ([.g a], .gpr b, some x.2, false, false)) ∧
    (∀ x ∈ [(Instr.lwl b n a, MemKind.lwl), (.lwr b n a, .lwr)],
      row x.1 = ([.g a, .g b], .gpr b, some x.2, false, false)) ∧
    row (.lwc1 b n a) = ([.g a], .fpr b, some .lwc1, false, false) ∧
    (∀ x ∈ [(Instr.sb b n a, MemKind.sb), (.sh b n a, .sh), (.sw b n a, .sw), (.swl b n a, .swl),
      (.swr b n a, .swr)], row x.1 = ([.g a, .g b], .none, some x.2, false, false)) ∧
    row (.swc1 b n a) = ([.g a, .f b], .none, some .swc1, false, false) ∧
    row (.mfc1 b c) = ([.f c], .gpr b, none, false, false) ∧
    row (.mtc1 b c) = ([.g b], .fpr c, none, false, false) ∧
    row .syscall = ([], .none, none, false, true) ∧
    (p.breakMode = .trap → row .brk = ([], .none, none, false, true)) ∧
    (p.breakMode = .illegal → row .brk = ([], .none, none, false, false))

/-- R427: an N-cycle stall is exactly N bubbles in place of the waiting instruction, which IFID keeps, and
the fresh check after them finds nothing: the next cycle issues the instruction. -/
def Obligations.StallsAreExact : Prop :=
  ∀ (s : State) (i : Instr) (n k : Nat), s.Inv → s.waiting i → s.decoderStall = 0 → s.syscallStall = false →
    n = hazard (handlerOf s.params i) (exStepRecord s.params s.idex) (memOut s) s.memwb → 0 < n →
    (∀ j t, j ≤ n → stepN (j + 1) s = .next t → t.status = .running) → s.status = .running →
      (0 < k → k ≤ n → ∃ t, stepN k s = .next t ∧ t.idex = .bubble ∧ t.ifid = s.ifid ∧
        t.decoderStall = n - k ∧ t.nfetched = s.nfetched) ∧
      ∃ t, stepN (n + 1) s = .next t ∧ t.idex.isBubble = false ∧ t.idex.insPC = s.ifid.insPC

/-- R422, R427, R491: an instruction right behind a load that reads the load's destination waits exactly
two cycles, unless it is a store. -/
def Obligations.LoadUseStallsTwo : Prop :=
  ∀ (s : State) (i : Instr) (j : RegIx), s.Inv → s.waiting i → s.decoderStall = 0 → s.syscallStall = false →
    s.idex.isLoad = true → s.idex.dst = .gpr j → j ≠ 0#5 → Src.g j ∈ (handlerOf s.params i).sources →
    i.stores = false → (∀ m t, m ≤ 2 → stepN (m + 1) s = .next t → t.status = .running) →
    s.status = .running →
      ∃ t u v, stepN 1 s = .next t ∧ stepN 2 s = .next u ∧ stepN 3 s = .next v ∧
        t.idex = .bubble ∧ u.idex = .bubble ∧ v.idex.isBubble = false ∧ v.idex.insPC = s.ifid.insPC

/-- R423, R424, R432, R453: when `mfhi`, `mflo` or a store is issued, no record that could still change
what it reads is in flight. -/
def Obligations.InterlocksCoverHiLoAndStores : Prop :=
  ∀ (s t : State) (i : Instr), step s = .next t → t.status = .running → t.idex.op = .instr i →
    (∀ rd, i = .mfhi rd ∨ i = .mflo rd →
      (∀ a b, t.exmem.dst ≠ .hilo a b ∧ t.memwb.dst ≠ .hilo a b) ∧
        t.idex.vhl = if i = .mfhi rd then t.hi else t.lo) ∧
    (i.stores = true → ∀ x ∈ (handlerOf s.params i).sources,
      t.exmem.dst.hits x = false ∧ t.memwb.dst.hits x = false)

/-- R104, R430, R431: an instruction reads the newest value of each source register: the one that the
older instructions in flight, and then the committed file, give it. -/
def Obligations.OperandsAreNewest : Prop :=
  ∀ (s t : State) (i : Instr), s.Inv → step s = .next t → t.status = .running → t.idex.op = .instr i →
    let h := handlerOf s.params i
    let newest := t.exmem.overlay (t.memwb.overlay t.gpr)
    (Src.g h.rs ∈ h.sources → t.idex.vrs = newest.read h.rs) ∧
    (Src.g h.rt ∈ h.sources → t.idex.vrt = newest.read h.rt)

/-- R432, R922: the FPR hazard window. `mfc1` reads the register as Writeback has left it, under
FPR_HAZARD_MODE = stale always, and under draw outside the window. -/
def Obligations.FprReadsAreStale : Prop :=
  ∀ (s t : State) (rt fs : RegIx), step s = .next t → t.status = .running → t.idex.op = .instr (.mfc1 rt fs) →
    (s.params.fprHazard = .stale ∨ (t.exmem.dst ≠ .fpr fs ∧ t.memwb.dst ≠ .fpr fs) →
      t.idex.vf = t.fpr.readF fs)

/-! ## The cycle -/

/-- R403, R410, R412, R429: when nothing is in flight and instruction `i` waits in IFID, one step issues
it: its record, with the operands read now, is in IDEX, and the architectural state is as it was. -/
def Obligations.StepIssuesTheDecodedInstruction : Prop :=
  ∀ (s : State) (i : Instr), s.quiescent → s.waiting i →
    ∃ t, step s = .next t ∧
      t.idex = issueRecord (.instr i) (handlerOf s.params i) s.ifid .bubble .bubble s ∧
      t.idex.ins = s.ifid.ins ∧ t.idex.insPC = s.ifid.insPC ∧
      t.exmem = .bubble ∧ t.memwb = .bubble ∧ t.status = .running ∧ t.gpr = s.gpr ∧ t.byp = s.byp ∧
      t.fpr = s.fpr ∧ t.hi = s.hi ∧ t.lo = s.lo ∧ t.mem = s.mem ∧ t.os = s.os ∧
      t.syscallStall = t.idex.isSyscall ∧ t.branchStall = t.idex.isCT ∧ t.bdPending = t.idex.isCT

/-- R13, R401 to R405, R470: the pipeline runs the instruction `exec` runs. When nothing is in flight and
instruction `i` waits, three steps bring it to Writeback, and the Writeback step of the fourth cycle
leaves exactly the architectural state that `exec i` leaves, whatever was fetched behind it. What `exec` is,
is log entry 7. -/
def Obligations.PipelineRunsExec : Prop :=
  ∀ (s t : State) (i : Instr), s.quiescent → s.waiting i → exec i s = .next t →
    ∃ u, stepN 3 s = .next u ∧ u.status = .running ∧
      let w := wbState u.memwb u
      w.gpr = t.gpr ∧ w.fpr = t.fpr ∧ w.hi = t.hi ∧ w.lo = t.lo ∧ w.mem = t.mem ∧ w.os = t.os ∧
      w.status = t.status ∧ w.sysReplies = t.sysReplies ∧
      ∃ v, stepN 4 s = .next v ∧ v.gpr = t.gpr ∧ v.fpr = t.fpr ∧ v.hi = t.hi ∧ v.lo = t.lo ∧
        v.os = t.os ∧ v.sysReplies = t.sysReplies ∧ (t.status ≠ .running → v = w)

/-- R405, R480, R481, R902: with nothing waiting or in flight, a cycle fetches the word at `pc`, and
changes nothing else but the write flags. -/
def Obligations.FetchResults : Prop :=
  ∀ s : State, s.quiescent → s.ifid.valid = false → s.budgetSpent = false →
    let d : FetchLatch :=
      if s.pc.toNat % 4 ≠ 0 then
        { valid := true, ins := 0#32, insPC := s.pc, ffault := some (.misaligned s.pc) }
      else if mapped s.params s.pc = false then
        { valid := true, ins := 0#32, insPC := s.pc, ffault := some (.memUnmapped s.pc) }
      else
        { valid := true, insPC := s.pc, ffault := none,
          ins := s.mem.read s.pc ++ s.mem.read (s.pc + 1#32) ++ s.mem.read (s.pc + 2#32) ++
            s.mem.read (s.pc + 3#32) }
    step s = .next { s with
      ifid := d, pc := s.pc + 4#32, nfetched := s.nfetched + 1, wflag := clearFlags }

/-- R404, R411, R482: a fetch fault that Decode reaches is taken when its record reaches Writeback, four
cycles on; until then no instruction has changed the architectural state. -/
def Obligations.FetchFaultsAreTaken : Prop :=
  ∀ (s : State) (f : ModelFault), s.quiescent → s.ifid.valid = true → s.ifid.ffault = some f →
    ∃ t, stepN 4 s = .next t ∧ t.status = .faulted f ∧ t.gpr = s.gpr ∧ t.fpr = s.fpr ∧ t.hi = s.hi ∧
      t.lo = s.lo ∧ t.mem = s.mem ∧ t.os = s.os

/-- R320, R808, R809: an illegal word halts the core when it reaches Writeback, four cycles after it waits
in IFID, with its word and address in the record and the architectural state untouched. -/
def Obligations.IllegalWordsHalt : Prop :=
  ∀ (s : State) (e : Reject), s.quiescent → s.ifid.valid = true → s.ifid.ffault = none →
    decode s.ifid.ins = .error e →
    ∃ t r, stepN 4 s = .next t ∧ t.status = .halted r ∧ r.op = .illegal ∧ r.ins = s.ifid.ins ∧
      r.insPC = s.ifid.insPC ∧ t.gpr = s.gpr ∧ t.fpr = s.fpr ∧ t.hi = s.hi ∧ t.lo = s.lo ∧
      t.mem = s.mem ∧ t.os = s.os ∧ t.fatalDump.gpr = allRegs.map s.gpr.read ∧ t.fatalDump.pc = t.pc

/-- R404, R470, R802, R806, R808, R821: a marked or illegal record in Writeback ends the run in that
cycle, whatever is behind it; no later step of the cycle runs and no latch is loaded. -/
def Obligations.WritebackEndsTheRun : Prop :=
  ∀ s : State, s.status = .running →
    (∀ r, s.memwb.exc = some (.refuse r) → step s = .next { s with status := .refused r }) ∧
    (∀ f, s.memwb.exc = some (.fault f) → step s = .next { s with status := .faulted f }) ∧
    (s.memwb.exc = none → s.memwb.isBubble = false → s.memwb.isIllegal = true →
      step s = .next { s with status := .halted s.memwb })

/-- Only a running machine takes further cycles (R119). That the answer of `step` and `exec` there is the
fault `runEnded` is the model's choice (log entry 8). -/
def Obligations.TerminalStatesStop : Prop :=
  ∀ s : State, s.status ≠ .running → step s = .fault .runEnded ∧ ∀ i, exec i s = .fault .runEnded

/-- R103, R108, R109, R471: the committed registers change only by the Writeback commit of the record in
MEMWB, and by a trap there; a trap leaves the floating-point registers and the Hi/Lo pair. -/
def Obligations.OnlyWritebackCommits : Prop :=
  ∀ s t : State, step s = .next t →
    (s.memwb.isSyscall = false → ∀ i, s.memwb.dst ≠ .gpr i → t.gpr.read i = s.gpr.read i) ∧
    (∀ i, s.memwb.dst ≠ .fpr i → t.fpr.readF i = s.fpr.readF i) ∧
    ((∀ b, s.memwb.dst ≠ .hilo true b) → t.hi = s.hi) ∧ ((∀ a, s.memwb.dst ≠ .hilo a true) → t.lo = s.lo) ∧
    (s.memwb.isSyscall = true → t.fpr = s.fpr ∧ t.hi = s.hi ∧ t.lo = s.lo) ∧
    (s.memwb.isSyscall = false → t.os = s.os ∧ t.sysReplies = s.sysReplies)

/-- R200, R216, R454: memory changes only by the store in the Memory stage, in that cycle, at its bytes,
and by a trap. -/
def Obligations.OnlyTheMemoryStageStores : Prop :=
  ∀ s t : State, s.mem.wf = true → step s = .next t → s.memwb.isSyscall = false →
    (s.exmem.isStore = false → t.mem = s.mem) ∧
    ∀ k, s.exmem.mem = some k → ∀ b, (∀ v, storedByte k s.exmem.addr v b = none) →
      t.mem.read b = s.mem.read b

/-- R110: the writers of `pc`. With no trap in Writeback and no taken control transfer in Execute, `pc`
stays or a fetch from it adds 4. -/
def Obligations.OnlyFetchAdvancesThePC : Prop :=
  ∀ s t : State, step s = .next t → s.memwb.isSyscall = false →
    (s.idex.isCT = false ∨ (exStepRecord s.params s.idex).btaken = false) →
      t.pc = s.pc ∧ t.nfetched = s.nfetched ∨
        t.pc = s.pc + 4#32 ∧ t.nfetched = s.nfetched + 1 ∧ t.ifid.valid = true ∧ t.ifid.insPC = s.pc

/-- R429, R443, R444, R480, R605: in the cycle a control transfer is in Execute its outcome is recorded, a
taken one redirects `pc`, and nothing is fetched. -/
def Obligations.BranchesRedirectBehindTheGate : Prop :=
  ∀ s t : State, s.Inv → step s = .next t → t.status = .running → s.idex.isCT = true →
    s.idex.exc = none → s.idex.isSyscall = false → s.idex.isIllegal = false →
    (exStepRecord s.params s.idex).exc = none → s.memwb.isSyscall = false →
      t.lastBtaken = t.exmem.btaken ∧ t.lastBd = s.idex.bd ∧ t.lastBtgt = t.exmem.btgt ∧
      t.pc = (if t.exmem.btaken then t.exmem.btgt else s.pc) ∧ t.nfetched = s.nfetched ∧
      (t.ifid.valid = true → t.ifid = s.ifid)

/-- R483, R601, R605: the program order of a control transfer at B that runs alone: B, then B+4, whether or
not it is taken, then the target (or B+8). The delay slot is issued in the cycle after B, marked as such, or
waits on a hazard; in the cycle that issues it nothing is fetched, and the next fetch is at the target. -/
def Obligations.DelaySlotBeforeTheTarget : Prop :=
  ∀ (s : State) (i : Instr), s.quiescent → s.waiting i → i.isControlTransfer = true → s.bdPending = false →
    s.params.fetchBudget = none → s.pc = s.ifid.insPC + 4#32 →
    ∃ t u, stepN 1 s = .next t ∧ stepN 2 s = .next u ∧
      t.ifid.valid = true ∧ t.ifid.insPC = s.ifid.insPC + 4#32 ∧ u.nfetched = s.nfetched + 1 ∧
      u.pc = (if u.exmem.btaken then u.exmem.btgt else s.ifid.insPC + 8#32) ∧
      (u.idex.isBubble = true ∧ u.ifid = t.ifid ∨
        u.idex.insPC = s.ifid.insPC + 4#32 ∧ u.idex.bd = true ∧ u.ifid.valid = false ∧
          ∃ v, stepN 3 s = .next v ∧ v.idex.isBubble = true ∧ v.ifid.valid = true ∧ v.ifid.insPC = u.pc)

/-- R209, R230, R231: a word fetched in a cycle is the word memory holds after that cycle's store; a word
already waiting keeps its value. -/
def Obligations.FetchSeesTheStores : Prop :=
  ∀ s t : State, step s = .next t → t.status = .running →
    t.ifid.valid = true → t.ifid.ffault = none →
      t.ifid = s.ifid ∨ t.ifid.ins = t.mem.read32 t.ifid.insPC

/-- R702, R811, R813, R814, R924: the trap step in the pipeline, with no fetch budget. The registers and
the memory the emulator left are visible at once; the next word is fetched from the resume address in
this same cycle; the flags are clear and only bubbles are in flight. -/
def Obligations.TrapStepInThePipeline : Prop :=
  ∀ (s t : State), s.Inv → s.status = .running → s.memwb.isSyscall = true → s.memwb.exc = none →
    s.memwb.isIllegal = false → s.params.fetchBudget = none → (s.sysReply s.memwb).leaves = false →
    step s = .next t →
      let r := s.sysReply s.memwb
      let resume := if s.params.syscallResume = .after then s.memwb.insPC + 4#32 else s.memwb.insPC
      t.gpr = s.gpr.writeAll r.regs ∧ t.byp = t.gpr ∧ t.mem = s.mem.writeAll r.bytes ∧ t.os = r.os ∧
      t.hi = s.hi ∧ t.lo = s.lo ∧ t.fpr = s.fpr ∧ t.wflag = clearFlags ∧ t.syscallStall = false ∧
      t.idex = .bubble ∧ t.exmem = .bubble ∧ t.memwb = .bubble ∧ t.status = .running ∧
      t.ifid.valid = true ∧ t.ifid.insPC = resume ∧ t.pc = resume + 4#32 ∧ t.nfetched = s.nfetched - 1 + 1

/-- R485: the driver stops the run at the end of a cycle exactly when the budget is reached and every
fetched instruction has retired. -/
def Obligations.BudgetStopsTheRun : Prop :=
  ∀ s t : State, step s = .next t → (wbState s.memwb s).status = .running →
    (t.status = .stopped ↔
      (∃ n, t.params.fetchBudget = some n ∧ n ≤ t.nfetched) ∧ t.ifid.valid = false ∧
        t.idex.isBubble = true ∧ t.exmem.isBubble = true ∧ t.memwb.isBubble = true)

/-- No step and no instruction changes the OPEN parameters of R9. That they stand in a field of State, which
every step leaves as it is, is the model's choice (log entry 13). -/
def Obligations.ParametersAreConstant : Prop :=
  (∀ s t : State, step s = .next t → t.params = s.params) ∧
    ∀ (i : Instr) (s t : State), exec i s = .next t → t.params = s.params

/-! ## Reset and the invariant -/

/-- R140, R900, R910: the state of a launch. -/
def Obligations.LaunchState : Prop :=
  ∀ l : Launch,
    let s := State.launch l
    s.gpr.read 0#5 = 0#32 ∧ (∀ i, i ≠ 0#5 → s.gpr.read i = l.gpr.read i) ∧ s.byp = s.gpr ∧
    s.fpr = l.fpr ∧ s.hi = l.hi ∧ s.lo = l.lo ∧ s.pc = l.entryPC ∧
    (∀ i : Fin 32, s.wflag[i] = false) ∧ s.decoderStall = 0 ∧ s.branchStall = false ∧
    s.syscallStall = false ∧ s.bdPending = false ∧ s.lastBtaken = false ∧ s.lastBd = false ∧
    s.lastBtgt = 0#32 ∧ s.nfetched = 0 ∧ s.ifid.valid = false ∧ s.idex.isBubble = true ∧
    s.exmem.isBubble = true ∧ s.memwb.isBubble = true ∧ s.status = .running ∧ s.mem = l.mem ∧ s.os = l.os

/-- R405, R902: cycle 1 fetches from ENTRY_PC and cycle 2 decodes that instruction. -/
def Obligations.LaunchRunsTheEntryInstruction : Prop :=
  ∀ (l : Launch) (i : Instr), l.params.fetchBudget = none → l.entryPC.toNat % 4 = 0 →
    mapped l.params l.entryPC = true → decode (l.mem.read32 l.entryPC) = .ok i →
    ∃ t u, stepN 1 (State.launch l) = .next t ∧ t.waiting i ∧ t.ifid.insPC = l.entryPC ∧
      stepN 2 (State.launch l) = .next u ∧ u.idex.isBubble = false ∧ u.idex.insPC = l.entryPC ∧
      u.idex.ins = l.mem.read32 l.entryPC

/-- The invariant holds after a launch with memory in its canonical form, so at reset, whose launch values
are the model's choice (log entries 1 to 5). -/
def Obligations.InvariantAtLaunch : Prop :=
  (∀ l : Launch, l.mem.wf = true → (State.launch l).Inv) ∧ State.reset.Inv

/-- R104, R113 to R116, R121, R811, R814: every step keeps the invariant. -/
def Obligations.StepsKeepTheInvariant : Prop :=
  ∀ s t : State, s.Inv → step s = .next t → t.Inv

/-- R107: when no instruction is in flight the bypass copy is the committed file. -/
def Obligations.EmptyPipelineBypass : Prop :=
  ∀ s : State, s.Inv → s.status = .running → s.pipelineEmpty = true →
    ∀ i, s.byp.read i = s.gpr.read i

/-- The model's own operation (log entry 6): `withFetchWord` puts an instruction where it waits with nothing
in flight, and the next step issues it: its record is in IDEX. -/
def Obligations.PlacedWordIsIssued : Prop :=
  ∀ (s : State) (w : Word) (i : Instr), s.status = .running → s.mem.wf = true → decode w = .ok i →
    let t := s.withFetchWord 32 w.toNat
    t.quiescent ∧ t.waiting i ∧ t.ifid.insPC = s.pc ∧ t.mem.read32 s.pc = w ∧
      decodeTableWord 32 w.toNat = some i ∧
      ∃ u, step t = .next u ∧
        u.idex = issueRecord (.instr i) (handlerOf t.params i) t.ifid .bubble .bubble t ∧
        u.idex.ins = w ∧ u.idex.insPC = s.pc
end

