-- ==== Sys2Proof/Laws/Encoding.lean ====
section
/-! SUPPORT. The fields of an encoded word: each field of each format reads back as it was put in. -/

namespace Sys2Proof

theorem append_toNat {m n : Nat} (x : BitVec m) (y : BitVec n) :
    (x ++ y).toNat = x.toNat * 2 ^ n + y.toNat := by
  rw [BitVec.toNat_append, ← Nat.shiftLeft_add_eq_or_of_lt y.isLt, Nat.shiftLeft_eq]

theorem extract_toNat {w : Nat} (v : BitVec w) (lo n : Nat) :
    (v.extractLsb' lo n).toNat = v.toNat / 2 ^ lo % 2 ^ n := by
  rw [BitVec.extractLsb'_toNat, Nat.shiftRight_eq_div_pow]

section fields
variable (op : BitVec 6) (rs rt rd sh : BitVec 5) (fn : BitVec 6) (imm : Imm16) (tg : Target26)

theorem rFormat_toNat : (rFormat op rs rt rd sh fn).toNat =
    op.toNat * 2 ^ 26 + rs.toNat * 2 ^ 21 + rt.toNat * 2 ^ 16 + rd.toNat * 2 ^ 11 + sh.toNat * 2 ^ 6 +
      fn.toNat := by
  unfold rFormat
  simp only [append_toNat]
  omega

theorem iFormat_toNat : (iFormat op rs rt imm).toNat =
    op.toNat * 2 ^ 26 + rs.toNat * 2 ^ 21 + rt.toNat * 2 ^ 16 + imm.toNat := by
  unfold iFormat
  simp only [append_toNat]
  omega

theorem jFormat_toNat : (jFormat op tg).toNat = op.toNat * 2 ^ 26 + tg.toNat := by
  unfold jFormat
  simp only [append_toNat]

@[simp] theorem opcodeOf_rFormat : opcodeOf (rFormat op rs rt rd sh fn) = op := by
  apply BitVec.eq_of_toNat_eq
  rw [opcodeOf, extract_toNat, rFormat_toNat]
  have := op.isLt; have := rs.isLt; have := rt.isLt; have := rd.isLt; have := sh.isLt; have := fn.isLt
  omega

@[simp] theorem rsOf_rFormat : rsOf (rFormat op rs rt rd sh fn) = rs := by
  apply BitVec.eq_of_toNat_eq
  rw [rsOf, extract_toNat, rFormat_toNat]
  have := op.isLt; have := rs.isLt; have := rt.isLt; have := rd.isLt; have := sh.isLt; have := fn.isLt
  omega

@[simp] theorem rtOf_rFormat : rtOf (rFormat op rs rt rd sh fn) = rt := by
  apply BitVec.eq_of_toNat_eq
  rw [rtOf, extract_toNat, rFormat_toNat]
  have := op.isLt; have := rs.isLt; have := rt.isLt; have := rd.isLt; have := sh.isLt; have := fn.isLt
  omega

@[simp] theorem rdOf_rFormat : rdOf (rFormat op rs rt rd sh fn) = rd := by
  apply BitVec.eq_of_toNat_eq
  rw [rdOf, extract_toNat, rFormat_toNat]
  have := op.isLt; have := rs.isLt; have := rt.isLt; have := rd.isLt; have := sh.isLt; have := fn.isLt
  omega

@[simp] theorem shamtOf_rFormat : shamtOf (rFormat op rs rt rd sh fn) = sh := by
  apply BitVec.eq_of_toNat_eq
  rw [shamtOf, extract_toNat, rFormat_toNat]
  have := op.isLt; have := rs.isLt; have := rt.isLt; have := rd.isLt; have := sh.isLt; have := fn.isLt
  omega

@[simp] theorem functOf_rFormat : functOf (rFormat op rs rt rd sh fn) = fn := by
  apply BitVec.eq_of_toNat_eq
  rw [functOf, extract_toNat, rFormat_toNat]
  have := op.isLt; have := rs.isLt; have := rt.isLt; have := rd.isLt; have := sh.isLt; have := fn.isLt
  omega

@[simp] theorem opcodeOf_iFormat : opcodeOf (iFormat op rs rt imm) = op := by
  apply BitVec.eq_of_toNat_eq
  rw [opcodeOf, extract_toNat, iFormat_toNat]
  have := op.isLt; have := rs.isLt; have := rt.isLt; have := imm.isLt
  omega

@[simp] theorem rsOf_iFormat : rsOf (iFormat op rs rt imm) = rs := by
  apply BitVec.eq_of_toNat_eq
  rw [rsOf, extract_toNat, iFormat_toNat]
  have := op.isLt; have := rs.isLt; have := rt.isLt; have := imm.isLt
  omega

@[simp] theorem rtOf_iFormat : rtOf (iFormat op rs rt imm) = rt := by
  apply BitVec.eq_of_toNat_eq
  rw [rtOf, extract_toNat, iFormat_toNat]
  have := op.isLt; have := rs.isLt; have := rt.isLt; have := imm.isLt
  omega

@[simp] theorem imm16Of_iFormat : imm16Of (iFormat op rs rt imm) = imm := by
  apply BitVec.eq_of_toNat_eq
  rw [imm16Of, extract_toNat, iFormat_toNat]
  have := op.isLt; have := rs.isLt; have := rt.isLt; have := imm.isLt
  omega

@[simp] theorem opcodeOf_jFormat : opcodeOf (jFormat op tg) = op := by
  apply BitVec.eq_of_toNat_eq
  rw [opcodeOf, extract_toNat, jFormat_toNat]
  have := op.isLt; have := tg.isLt
  omega

@[simp] theorem target26Of_jFormat : target26Of (jFormat op tg) = tg := by
  apply BitVec.eq_of_toNat_eq
  rw [target26Of, extract_toNat, jFormat_toNat]
  have := op.isLt; have := tg.isLt
  omega

end fields

/-- A word is its four bytes in memory order. -/
theorem wordOfBytes_bytesOfWord (w : Word) :
    decodeBytes (bytesOfWord w) = decode w := by
  show decode (wordOfBytes _ _ _ _) = decode w
  congr 1
  apply BitVec.eq_of_toNat_eq
  unfold wordOfBytes
  simp only [append_toNat, extract_toNat]
  have := w.isLt
  omega

end Sys2Proof
end

