-- ==== Sys2Proof/Laws/State.lean ====
section
/-! SUPPORT. What each update of the state writes and what it leaves: one lemma per field per update. -/

namespace Sys2Proof.Machine

section earlyCommit
variable (s : State) (i : RegIx) (v : Word)

@[simp] theorem earlyCommit_gpr : (s.earlyCommit i v).gpr = s.gpr := rfl
@[simp] theorem earlyCommit_byp : (s.earlyCommit i v).byp = s.byp.write i v := rfl
@[simp] theorem earlyCommit_fpr : (s.earlyCommit i v).fpr = s.fpr := rfl
@[simp] theorem earlyCommit_hi : (s.earlyCommit i v).hi = s.hi := rfl
@[simp] theorem earlyCommit_lo : (s.earlyCommit i v).lo = s.lo := rfl
@[simp] theorem earlyCommit_pc : (s.earlyCommit i v).pc = s.pc := rfl
@[simp] theorem earlyCommit_wflag : (s.earlyCommit i v).wflag = s.wflag.set i.toNat true := rfl
@[simp] theorem earlyCommit_decoderStall : (s.earlyCommit i v).decoderStall = s.decoderStall := rfl
@[simp] theorem earlyCommit_branchStall : (s.earlyCommit i v).branchStall = s.branchStall := rfl
@[simp] theorem earlyCommit_syscallStall : (s.earlyCommit i v).syscallStall = s.syscallStall := rfl
@[simp] theorem earlyCommit_bdPending : (s.earlyCommit i v).bdPending = s.bdPending := rfl
@[simp] theorem earlyCommit_lastBtaken : (s.earlyCommit i v).lastBtaken = s.lastBtaken := rfl
@[simp] theorem earlyCommit_lastBd : (s.earlyCommit i v).lastBd = s.lastBd := rfl
@[simp] theorem earlyCommit_lastBtgt : (s.earlyCommit i v).lastBtgt = s.lastBtgt := rfl
@[simp] theorem earlyCommit_nfetched : (s.earlyCommit i v).nfetched = s.nfetched := rfl
@[simp] theorem earlyCommit_ifid : (s.earlyCommit i v).ifid = s.ifid := rfl
@[simp] theorem earlyCommit_idex : (s.earlyCommit i v).idex = s.idex := rfl
@[simp] theorem earlyCommit_exmem : (s.earlyCommit i v).exmem = s.exmem := rfl
@[simp] theorem earlyCommit_memwb : (s.earlyCommit i v).memwb = s.memwb := rfl
@[simp] theorem earlyCommit_status : (s.earlyCommit i v).status = s.status := rfl
@[simp] theorem earlyCommit_mem : (s.earlyCommit i v).mem = s.mem := rfl
@[simp] theorem earlyCommit_os : (s.earlyCommit i v).os = s.os := rfl
@[simp] theorem earlyCommit_params : (s.earlyCommit i v).params = s.params := rfl
@[simp] theorem earlyCommit_sysReplies : (s.earlyCommit i v).sysReplies = s.sysReplies := rfl
@[simp] theorem earlyCommit_draws : (s.earlyCommit i v).draws = s.draws := rfl

end earlyCommit

section commitGpr
variable (s : State) (i : RegIx) (v : Word)

@[simp] theorem commitGpr_gpr : (s.commitGpr i v).gpr = s.gpr.write i v := rfl
@[simp] theorem commitGpr_byp : (s.commitGpr i v).byp = s.byp := rfl
@[simp] theorem commitGpr_fpr : (s.commitGpr i v).fpr = s.fpr := rfl
@[simp] theorem commitGpr_hi : (s.commitGpr i v).hi = s.hi := rfl
@[simp] theorem commitGpr_lo : (s.commitGpr i v).lo = s.lo := rfl
@[simp] theorem commitGpr_pc : (s.commitGpr i v).pc = s.pc := rfl
@[simp] theorem commitGpr_wflag : (s.commitGpr i v).wflag = s.wflag := rfl
@[simp] theorem commitGpr_decoderStall : (s.commitGpr i v).decoderStall = s.decoderStall := rfl
@[simp] theorem commitGpr_branchStall : (s.commitGpr i v).branchStall = s.branchStall := rfl
@[simp] theorem commitGpr_syscallStall : (s.commitGpr i v).syscallStall = s.syscallStall := rfl
@[simp] theorem commitGpr_bdPending : (s.commitGpr i v).bdPending = s.bdPending := rfl
@[simp] theorem commitGpr_lastBtaken : (s.commitGpr i v).lastBtaken = s.lastBtaken := rfl
@[simp] theorem commitGpr_lastBd : (s.commitGpr i v).lastBd = s.lastBd := rfl
@[simp] theorem commitGpr_lastBtgt : (s.commitGpr i v).lastBtgt = s.lastBtgt := rfl
@[simp] theorem commitGpr_nfetched : (s.commitGpr i v).nfetched = s.nfetched := rfl
@[simp] theorem commitGpr_ifid : (s.commitGpr i v).ifid = s.ifid := rfl
@[simp] theorem commitGpr_idex : (s.commitGpr i v).idex = s.idex := rfl
@[simp] theorem commitGpr_exmem : (s.commitGpr i v).exmem = s.exmem := rfl
@[simp] theorem commitGpr_memwb : (s.commitGpr i v).memwb = s.memwb := rfl
@[simp] theorem commitGpr_status : (s.commitGpr i v).status = s.status := rfl
@[simp] theorem commitGpr_mem : (s.commitGpr i v).mem = s.mem := rfl
@[simp] theorem commitGpr_os : (s.commitGpr i v).os = s.os := rfl
@[simp] theorem commitGpr_params : (s.commitGpr i v).params = s.params := rfl
@[simp] theorem commitGpr_sysReplies : (s.commitGpr i v).sysReplies = s.sysReplies := rfl
@[simp] theorem commitGpr_draws : (s.commitGpr i v).draws = s.draws := rfl

end commitGpr

section commitFpr
variable (s : State) (i : RegIx) (v : Word)

@[simp] theorem commitFpr_gpr : (s.commitFpr i v).gpr = s.gpr := rfl
@[simp] theorem commitFpr_byp : (s.commitFpr i v).byp = s.byp := rfl
@[simp] theorem commitFpr_fpr : (s.commitFpr i v).fpr = s.fpr.writeF i v := rfl
@[simp] theorem commitFpr_hi : (s.commitFpr i v).hi = s.hi := rfl
@[simp] theorem commitFpr_lo : (s.commitFpr i v).lo = s.lo := rfl
@[simp] theorem commitFpr_pc : (s.commitFpr i v).pc = s.pc := rfl
@[simp] theorem commitFpr_wflag : (s.commitFpr i v).wflag = s.wflag := rfl
@[simp] theorem commitFpr_decoderStall : (s.commitFpr i v).decoderStall = s.decoderStall := rfl
@[simp] theorem commitFpr_branchStall : (s.commitFpr i v).branchStall = s.branchStall := rfl
@[simp] theorem commitFpr_syscallStall : (s.commitFpr i v).syscallStall = s.syscallStall := rfl
@[simp] theorem commitFpr_bdPending : (s.commitFpr i v).bdPending = s.bdPending := rfl
@[simp] theorem commitFpr_lastBtaken : (s.commitFpr i v).lastBtaken = s.lastBtaken := rfl
@[simp] theorem commitFpr_lastBd : (s.commitFpr i v).lastBd = s.lastBd := rfl
@[simp] theorem commitFpr_lastBtgt : (s.commitFpr i v).lastBtgt = s.lastBtgt := rfl
@[simp] theorem commitFpr_nfetched : (s.commitFpr i v).nfetched = s.nfetched := rfl
@[simp] theorem commitFpr_ifid : (s.commitFpr i v).ifid = s.ifid := rfl
@[simp] theorem commitFpr_idex : (s.commitFpr i v).idex = s.idex := rfl
@[simp] theorem commitFpr_exmem : (s.commitFpr i v).exmem = s.exmem := rfl
@[simp] theorem commitFpr_memwb : (s.commitFpr i v).memwb = s.memwb := rfl
@[simp] theorem commitFpr_status : (s.commitFpr i v).status = s.status := rfl
@[simp] theorem commitFpr_mem : (s.commitFpr i v).mem = s.mem := rfl
@[simp] theorem commitFpr_os : (s.commitFpr i v).os = s.os := rfl
@[simp] theorem commitFpr_params : (s.commitFpr i v).params = s.params := rfl
@[simp] theorem commitFpr_sysReplies : (s.commitFpr i v).sysReplies = s.sysReplies := rfl
@[simp] theorem commitFpr_draws : (s.commitFpr i v).draws = s.draws := rfl

end commitFpr

section commitHiLo
variable (s : State) (a b : Bool) (h l : Word)

@[simp] theorem commitHiLo_gpr : (s.commitHiLo a b h l).gpr = s.gpr := rfl
@[simp] theorem commitHiLo_byp : (s.commitHiLo a b h l).byp = s.byp := rfl
@[simp] theorem commitHiLo_fpr : (s.commitHiLo a b h l).fpr = s.fpr := rfl
@[simp] theorem commitHiLo_hi : (s.commitHiLo a b h l).hi = if a then h else s.hi := rfl
@[simp] theorem commitHiLo_lo : (s.commitHiLo a b h l).lo = if b then l else s.lo := rfl
@[simp] theorem commitHiLo_pc : (s.commitHiLo a b h l).pc = s.pc := rfl
@[simp] theorem commitHiLo_wflag : (s.commitHiLo a b h l).wflag = s.wflag := rfl
@[simp] theorem commitHiLo_decoderStall : (s.commitHiLo a b h l).decoderStall = s.decoderStall := rfl
@[simp] theorem commitHiLo_branchStall : (s.commitHiLo a b h l).branchStall = s.branchStall := rfl
@[simp] theorem commitHiLo_syscallStall : (s.commitHiLo a b h l).syscallStall = s.syscallStall := rfl
@[simp] theorem commitHiLo_bdPending : (s.commitHiLo a b h l).bdPending = s.bdPending := rfl
@[simp] theorem commitHiLo_lastBtaken : (s.commitHiLo a b h l).lastBtaken = s.lastBtaken := rfl
@[simp] theorem commitHiLo_lastBd : (s.commitHiLo a b h l).lastBd = s.lastBd := rfl
@[simp] theorem commitHiLo_lastBtgt : (s.commitHiLo a b h l).lastBtgt = s.lastBtgt := rfl
@[simp] theorem commitHiLo_nfetched : (s.commitHiLo a b h l).nfetched = s.nfetched := rfl
@[simp] theorem commitHiLo_ifid : (s.commitHiLo a b h l).ifid = s.ifid := rfl
@[simp] theorem commitHiLo_idex : (s.commitHiLo a b h l).idex = s.idex := rfl
@[simp] theorem commitHiLo_exmem : (s.commitHiLo a b h l).exmem = s.exmem := rfl
@[simp] theorem commitHiLo_memwb : (s.commitHiLo a b h l).memwb = s.memwb := rfl
@[simp] theorem commitHiLo_status : (s.commitHiLo a b h l).status = s.status := rfl
@[simp] theorem commitHiLo_mem : (s.commitHiLo a b h l).mem = s.mem := rfl
@[simp] theorem commitHiLo_os : (s.commitHiLo a b h l).os = s.os := rfl
@[simp] theorem commitHiLo_params : (s.commitHiLo a b h l).params = s.params := rfl
@[simp] theorem commitHiLo_sysReplies : (s.commitHiLo a b h l).sysReplies = s.sysReplies := rfl
@[simp] theorem commitHiLo_draws : (s.commitHiLo a b h l).draws = s.draws := rfl

end commitHiLo

section deferredCommit
variable (s : State) (i : RegIx) (v : Word)

@[simp] theorem deferredCommit_gpr : (s.deferredCommit i v).gpr = s.gpr := by unfold State.deferredCommit; split <;> rfl
@[simp] theorem deferredCommit_byp : (s.deferredCommit i v).byp = (if i ≠ 0#5 ∧ s.wflag[i.toNat] = false then s.byp.write i v else s.byp) := by unfold State.deferredCommit; split <;> rfl
@[simp] theorem deferredCommit_fpr : (s.deferredCommit i v).fpr = s.fpr := by unfold State.deferredCommit; split <;> rfl
@[simp] theorem deferredCommit_hi : (s.deferredCommit i v).hi = s.hi := by unfold State.deferredCommit; split <;> rfl
@[simp] theorem deferredCommit_lo : (s.deferredCommit i v).lo = s.lo := by unfold State.deferredCommit; split <;> rfl
@[simp] theorem deferredCommit_pc : (s.deferredCommit i v).pc = s.pc := by unfold State.deferredCommit; split <;> rfl
@[simp] theorem deferredCommit_wflag : (s.deferredCommit i v).wflag = s.wflag := by unfold State.deferredCommit; split <;> rfl
@[simp] theorem deferredCommit_decoderStall : (s.deferredCommit i v).decoderStall = s.decoderStall := by unfold State.deferredCommit; split <;> rfl
@[simp] theorem deferredCommit_branchStall : (s.deferredCommit i v).branchStall = s.branchStall := by unfold State.deferredCommit; split <;> rfl
@[simp] theorem deferredCommit_syscallStall : (s.deferredCommit i v).syscallStall = s.syscallStall := by unfold State.deferredCommit; split <;> rfl
@[simp] theorem deferredCommit_bdPending : (s.deferredCommit i v).bdPending = s.bdPending := by unfold State.deferredCommit; split <;> rfl
@[simp] theorem deferredCommit_lastBtaken : (s.deferredCommit i v).lastBtaken = s.lastBtaken := by unfold State.deferredCommit; split <;> rfl
@[simp] theorem deferredCommit_lastBd : (s.deferredCommit i v).lastBd = s.lastBd := by unfold State.deferredCommit; split <;> rfl
@[simp] theorem deferredCommit_lastBtgt : (s.deferredCommit i v).lastBtgt = s.lastBtgt := by unfold State.deferredCommit; split <;> rfl
@[simp] theorem deferredCommit_nfetched : (s.deferredCommit i v).nfetched = s.nfetched := by unfold State.deferredCommit; split <;> rfl
@[simp] theorem deferredCommit_ifid : (s.deferredCommit i v).ifid = s.ifid := by unfold State.deferredCommit; split <;> rfl
@[simp] theorem deferredCommit_idex : (s.deferredCommit i v).idex = s.idex := by unfold State.deferredCommit; split <;> rfl
@[simp] theorem deferredCommit_exmem : (s.deferredCommit i v).exmem = s.exmem := by unfold State.deferredCommit; split <;> rfl
@[simp] theorem deferredCommit_memwb : (s.deferredCommit i v).memwb = s.memwb := by unfold State.deferredCommit; split <;> rfl
@[simp] theorem deferredCommit_status : (s.deferredCommit i v).status = s.status := by unfold State.deferredCommit; split <;> rfl
@[simp] theorem deferredCommit_mem : (s.deferredCommit i v).mem = s.mem := by unfold State.deferredCommit; split <;> rfl
@[simp] theorem deferredCommit_os : (s.deferredCommit i v).os = s.os := by unfold State.deferredCommit; split <;> rfl
@[simp] theorem deferredCommit_params : (s.deferredCommit i v).params = s.params := by unfold State.deferredCommit; split <;> rfl
@[simp] theorem deferredCommit_sysReplies : (s.deferredCommit i v).sysReplies = s.sysReplies := by unfold State.deferredCommit; split <;> rfl
@[simp] theorem deferredCommit_draws : (s.deferredCommit i v).draws = s.draws := by unfold State.deferredCommit; split <;> rfl

end deferredCommit

section clearWflag
variable (s : State)

@[simp] theorem clearWflag_gpr : s.clearWflag.gpr = s.gpr := rfl
@[simp] theorem clearWflag_byp : s.clearWflag.byp = s.byp := rfl
@[simp] theorem clearWflag_fpr : s.clearWflag.fpr = s.fpr := rfl
@[simp] theorem clearWflag_hi : s.clearWflag.hi = s.hi := rfl
@[simp] theorem clearWflag_lo : s.clearWflag.lo = s.lo := rfl
@[simp] theorem clearWflag_pc : s.clearWflag.pc = s.pc := rfl
@[simp] theorem clearWflag_wflag : s.clearWflag.wflag = clearFlags := rfl
@[simp] theorem clearWflag_decoderStall : s.clearWflag.decoderStall = s.decoderStall := rfl
@[simp] theorem clearWflag_branchStall : s.clearWflag.branchStall = s.branchStall := rfl
@[simp] theorem clearWflag_syscallStall : s.clearWflag.syscallStall = s.syscallStall := rfl
@[simp] theorem clearWflag_bdPending : s.clearWflag.bdPending = s.bdPending := rfl
@[simp] theorem clearWflag_lastBtaken : s.clearWflag.lastBtaken = s.lastBtaken := rfl
@[simp] theorem clearWflag_lastBd : s.clearWflag.lastBd = s.lastBd := rfl
@[simp] theorem clearWflag_lastBtgt : s.clearWflag.lastBtgt = s.lastBtgt := rfl
@[simp] theorem clearWflag_nfetched : s.clearWflag.nfetched = s.nfetched := rfl
@[simp] theorem clearWflag_ifid : s.clearWflag.ifid = s.ifid := rfl
@[simp] theorem clearWflag_idex : s.clearWflag.idex = s.idex := rfl
@[simp] theorem clearWflag_exmem : s.clearWflag.exmem = s.exmem := rfl
@[simp] theorem clearWflag_memwb : s.clearWflag.memwb = s.memwb := rfl
@[simp] theorem clearWflag_status : s.clearWflag.status = s.status := rfl
@[simp] theorem clearWflag_mem : s.clearWflag.mem = s.mem := rfl
@[simp] theorem clearWflag_os : s.clearWflag.os = s.os := rfl
@[simp] theorem clearWflag_params : s.clearWflag.params = s.params := rfl
@[simp] theorem clearWflag_sysReplies : s.clearWflag.sysReplies = s.sysReplies := rfl
@[simp] theorem clearWflag_draws : s.clearWflag.draws = s.draws := rfl

end clearWflag

section setStatus
variable (s : State) (t : Status)

@[simp] theorem setStatus_gpr : (s.setStatus t).gpr = s.gpr := rfl
@[simp] theorem setStatus_byp : (s.setStatus t).byp = s.byp := rfl
@[simp] theorem setStatus_fpr : (s.setStatus t).fpr = s.fpr := rfl
@[simp] theorem setStatus_hi : (s.setStatus t).hi = s.hi := rfl
@[simp] theorem setStatus_lo : (s.setStatus t).lo = s.lo := rfl
@[simp] theorem setStatus_pc : (s.setStatus t).pc = s.pc := rfl
@[simp] theorem setStatus_wflag : (s.setStatus t).wflag = s.wflag := rfl
@[simp] theorem setStatus_decoderStall : (s.setStatus t).decoderStall = s.decoderStall := rfl
@[simp] theorem setStatus_branchStall : (s.setStatus t).branchStall = s.branchStall := rfl
@[simp] theorem setStatus_syscallStall : (s.setStatus t).syscallStall = s.syscallStall := rfl
@[simp] theorem setStatus_bdPending : (s.setStatus t).bdPending = s.bdPending := rfl
@[simp] theorem setStatus_lastBtaken : (s.setStatus t).lastBtaken = s.lastBtaken := rfl
@[simp] theorem setStatus_lastBd : (s.setStatus t).lastBd = s.lastBd := rfl
@[simp] theorem setStatus_lastBtgt : (s.setStatus t).lastBtgt = s.lastBtgt := rfl
@[simp] theorem setStatus_nfetched : (s.setStatus t).nfetched = s.nfetched := rfl
@[simp] theorem setStatus_ifid : (s.setStatus t).ifid = s.ifid := rfl
@[simp] theorem setStatus_idex : (s.setStatus t).idex = s.idex := rfl
@[simp] theorem setStatus_exmem : (s.setStatus t).exmem = s.exmem := rfl
@[simp] theorem setStatus_memwb : (s.setStatus t).memwb = s.memwb := rfl
@[simp] theorem setStatus_status : (s.setStatus t).status = t := rfl
@[simp] theorem setStatus_mem : (s.setStatus t).mem = s.mem := rfl
@[simp] theorem setStatus_os : (s.setStatus t).os = s.os := rfl
@[simp] theorem setStatus_params : (s.setStatus t).params = s.params := rfl
@[simp] theorem setStatus_sysReplies : (s.setStatus t).sysReplies = s.sysReplies := rfl
@[simp] theorem setStatus_draws : (s.setStatus t).draws = s.draws := rfl

end setStatus

section recordBranch
variable (s : State) (e : Record)

@[simp] theorem recordBranch_gpr : (s.recordBranch e).gpr = s.gpr := rfl
@[simp] theorem recordBranch_byp : (s.recordBranch e).byp = s.byp := rfl
@[simp] theorem recordBranch_fpr : (s.recordBranch e).fpr = s.fpr := rfl
@[simp] theorem recordBranch_hi : (s.recordBranch e).hi = s.hi := rfl
@[simp] theorem recordBranch_lo : (s.recordBranch e).lo = s.lo := rfl
@[simp] theorem recordBranch_pc : (s.recordBranch e).pc = s.pc := rfl
@[simp] theorem recordBranch_wflag : (s.recordBranch e).wflag = s.wflag := rfl
@[simp] theorem recordBranch_decoderStall : (s.recordBranch e).decoderStall = s.decoderStall := rfl
@[simp] theorem recordBranch_branchStall : (s.recordBranch e).branchStall = s.branchStall := rfl
@[simp] theorem recordBranch_syscallStall : (s.recordBranch e).syscallStall = s.syscallStall := rfl
@[simp] theorem recordBranch_bdPending : (s.recordBranch e).bdPending = s.bdPending := rfl
@[simp] theorem recordBranch_lastBtaken : (s.recordBranch e).lastBtaken = e.btaken := rfl
@[simp] theorem recordBranch_lastBd : (s.recordBranch e).lastBd = e.bd := rfl
@[simp] theorem recordBranch_lastBtgt : (s.recordBranch e).lastBtgt = e.btgt := rfl
@[simp] theorem recordBranch_nfetched : (s.recordBranch e).nfetched = s.nfetched := rfl
@[simp] theorem recordBranch_ifid : (s.recordBranch e).ifid = s.ifid := rfl
@[simp] theorem recordBranch_idex : (s.recordBranch e).idex = s.idex := rfl
@[simp] theorem recordBranch_exmem : (s.recordBranch e).exmem = s.exmem := rfl
@[simp] theorem recordBranch_memwb : (s.recordBranch e).memwb = s.memwb := rfl
@[simp] theorem recordBranch_status : (s.recordBranch e).status = s.status := rfl
@[simp] theorem recordBranch_mem : (s.recordBranch e).mem = s.mem := rfl
@[simp] theorem recordBranch_os : (s.recordBranch e).os = s.os := rfl
@[simp] theorem recordBranch_params : (s.recordBranch e).params = s.params := rfl
@[simp] theorem recordBranch_sysReplies : (s.recordBranch e).sysReplies = s.sysReplies := rfl
@[simp] theorem recordBranch_draws : (s.recordBranch e).draws = s.draws := rfl

end recordBranch

section redirect
variable (s : State) (e : Record)

@[simp] theorem redirect_gpr : (s.redirect e).gpr = s.gpr := by unfold State.redirect; split <;> rfl
@[simp] theorem redirect_byp : (s.redirect e).byp = s.byp := by unfold State.redirect; split <;> rfl
@[simp] theorem redirect_fpr : (s.redirect e).fpr = s.fpr := by unfold State.redirect; split <;> rfl
@[simp] theorem redirect_hi : (s.redirect e).hi = s.hi := by unfold State.redirect; split <;> rfl
@[simp] theorem redirect_lo : (s.redirect e).lo = s.lo := by unfold State.redirect; split <;> rfl
@[simp] theorem redirect_pc : (s.redirect e).pc = (if e.btaken then e.btgt else s.pc) := by unfold State.redirect; split <;> rfl
@[simp] theorem redirect_wflag : (s.redirect e).wflag = s.wflag := by unfold State.redirect; split <;> rfl
@[simp] theorem redirect_decoderStall : (s.redirect e).decoderStall = s.decoderStall := by unfold State.redirect; split <;> rfl
@[simp] theorem redirect_branchStall : (s.redirect e).branchStall = s.branchStall := by unfold State.redirect; split <;> rfl
@[simp] theorem redirect_syscallStall : (s.redirect e).syscallStall = s.syscallStall := by unfold State.redirect; split <;> rfl
@[simp] theorem redirect_bdPending : (s.redirect e).bdPending = s.bdPending := by unfold State.redirect; split <;> rfl
@[simp] theorem redirect_lastBtaken : (s.redirect e).lastBtaken = s.lastBtaken := by unfold State.redirect; split <;> rfl
@[simp] theorem redirect_lastBd : (s.redirect e).lastBd = s.lastBd := by unfold State.redirect; split <;> rfl
@[simp] theorem redirect_lastBtgt : (s.redirect e).lastBtgt = s.lastBtgt := by unfold State.redirect; split <;> rfl
@[simp] theorem redirect_nfetched : (s.redirect e).nfetched = s.nfetched := by unfold State.redirect; split <;> rfl
@[simp] theorem redirect_ifid : (s.redirect e).ifid = s.ifid := by unfold State.redirect; split <;> rfl
@[simp] theorem redirect_idex : (s.redirect e).idex = s.idex := by unfold State.redirect; split <;> rfl
@[simp] theorem redirect_exmem : (s.redirect e).exmem = s.exmem := by unfold State.redirect; split <;> rfl
@[simp] theorem redirect_memwb : (s.redirect e).memwb = s.memwb := by unfold State.redirect; split <;> rfl
@[simp] theorem redirect_status : (s.redirect e).status = s.status := by unfold State.redirect; split <;> rfl
@[simp] theorem redirect_mem : (s.redirect e).mem = s.mem := by unfold State.redirect; split <;> rfl
@[simp] theorem redirect_os : (s.redirect e).os = s.os := by unfold State.redirect; split <;> rfl
@[simp] theorem redirect_params : (s.redirect e).params = s.params := by unfold State.redirect; split <;> rfl
@[simp] theorem redirect_sysReplies : (s.redirect e).sysReplies = s.sysReplies := by unfold State.redirect; split <;> rfl
@[simp] theorem redirect_draws : (s.redirect e).draws = s.draws := by unfold State.redirect; split <;> rfl

end redirect

section applyReply
variable (s : State) (r : SysReply)

@[simp] theorem applyReply_gpr : (s.applyReply r).gpr = s.gpr.writeAll r.regs := rfl
@[simp] theorem applyReply_byp : (s.applyReply r).byp = s.byp := rfl
@[simp] theorem applyReply_fpr : (s.applyReply r).fpr = s.fpr := rfl
@[simp] theorem applyReply_hi : (s.applyReply r).hi = s.hi := rfl
@[simp] theorem applyReply_lo : (s.applyReply r).lo = s.lo := rfl
@[simp] theorem applyReply_pc : (s.applyReply r).pc = s.pc := rfl
@[simp] theorem applyReply_wflag : (s.applyReply r).wflag = s.wflag := rfl
@[simp] theorem applyReply_decoderStall : (s.applyReply r).decoderStall = s.decoderStall := rfl
@[simp] theorem applyReply_branchStall : (s.applyReply r).branchStall = s.branchStall := rfl
@[simp] theorem applyReply_syscallStall : (s.applyReply r).syscallStall = s.syscallStall := rfl
@[simp] theorem applyReply_bdPending : (s.applyReply r).bdPending = s.bdPending := rfl
@[simp] theorem applyReply_lastBtaken : (s.applyReply r).lastBtaken = s.lastBtaken := rfl
@[simp] theorem applyReply_lastBd : (s.applyReply r).lastBd = s.lastBd := rfl
@[simp] theorem applyReply_lastBtgt : (s.applyReply r).lastBtgt = s.lastBtgt := rfl
@[simp] theorem applyReply_nfetched : (s.applyReply r).nfetched = s.nfetched := rfl
@[simp] theorem applyReply_ifid : (s.applyReply r).ifid = s.ifid := rfl
@[simp] theorem applyReply_idex : (s.applyReply r).idex = s.idex := rfl
@[simp] theorem applyReply_exmem : (s.applyReply r).exmem = s.exmem := rfl
@[simp] theorem applyReply_memwb : (s.applyReply r).memwb = s.memwb := rfl
@[simp] theorem applyReply_status : (s.applyReply r).status = s.status := rfl
@[simp] theorem applyReply_mem : (s.applyReply r).mem = s.mem.writeAll r.bytes := rfl
@[simp] theorem applyReply_os : (s.applyReply r).os = r.os := rfl
@[simp] theorem applyReply_params : (s.applyReply r).params = s.params := rfl
@[simp] theorem applyReply_sysReplies : (s.applyReply r).sysReplies = s.sysReplies.tail := rfl
@[simp] theorem applyReply_draws : (s.applyReply r).draws = s.draws := rfl

end applyReply

section resume
variable (s : State) (w : Record)

@[simp] theorem resume_gpr : (s.resume w).gpr = s.gpr := rfl
@[simp] theorem resume_byp : (s.resume w).byp = s.gpr := rfl
@[simp] theorem resume_fpr : (s.resume w).fpr = s.fpr := rfl
@[simp] theorem resume_hi : (s.resume w).hi = s.hi := rfl
@[simp] theorem resume_lo : (s.resume w).lo = s.lo := rfl
@[simp] theorem resume_pc : (s.resume w).pc = s.resumePC w := rfl
@[simp] theorem resume_wflag : (s.resume w).wflag = clearFlags := rfl
@[simp] theorem resume_decoderStall : (s.resume w).decoderStall = s.decoderStall := rfl
@[simp] theorem resume_branchStall : (s.resume w).branchStall = s.branchStall := rfl
@[simp] theorem resume_syscallStall : (s.resume w).syscallStall = false := rfl
@[simp] theorem resume_bdPending : (s.resume w).bdPending = s.bdPending := rfl
@[simp] theorem resume_lastBtaken : (s.resume w).lastBtaken = s.lastBtaken := rfl
@[simp] theorem resume_lastBd : (s.resume w).lastBd = s.lastBd := rfl
@[simp] theorem resume_lastBtgt : (s.resume w).lastBtgt = s.lastBtgt := rfl
@[simp] theorem resume_nfetched : (s.resume w).nfetched = s.nfetched := rfl
@[simp] theorem resume_ifid : (s.resume w).ifid = s.ifid := rfl
@[simp] theorem resume_idex : (s.resume w).idex = s.idex := rfl
@[simp] theorem resume_exmem : (s.resume w).exmem = s.exmem := rfl
@[simp] theorem resume_memwb : (s.resume w).memwb = s.memwb := rfl
@[simp] theorem resume_status : (s.resume w).status = s.status := rfl
@[simp] theorem resume_mem : (s.resume w).mem = s.mem := rfl
@[simp] theorem resume_os : (s.resume w).os = s.os := rfl
@[simp] theorem resume_params : (s.resume w).params = s.params := rfl
@[simp] theorem resume_sysReplies : (s.resume w).sysReplies = s.sysReplies := rfl
@[simp] theorem resume_draws : (s.resume w).draws = s.draws := rfl

end resume

section countDraw
variable (s : State) (b : Bool)

@[simp] theorem countDraw_gpr : (s.countDraw b).gpr = s.gpr := by unfold State.countDraw; split <;> rfl
@[simp] theorem countDraw_byp : (s.countDraw b).byp = s.byp := by unfold State.countDraw; split <;> rfl
@[simp] theorem countDraw_fpr : (s.countDraw b).fpr = s.fpr := by unfold State.countDraw; split <;> rfl
@[simp] theorem countDraw_hi : (s.countDraw b).hi = s.hi := by unfold State.countDraw; split <;> rfl
@[simp] theorem countDraw_lo : (s.countDraw b).lo = s.lo := by unfold State.countDraw; split <;> rfl
@[simp] theorem countDraw_pc : (s.countDraw b).pc = s.pc := by unfold State.countDraw; split <;> rfl
@[simp] theorem countDraw_wflag : (s.countDraw b).wflag = s.wflag := by unfold State.countDraw; split <;> rfl
@[simp] theorem countDraw_decoderStall : (s.countDraw b).decoderStall = s.decoderStall := by unfold State.countDraw; split <;> rfl
@[simp] theorem countDraw_branchStall : (s.countDraw b).branchStall = s.branchStall := by unfold State.countDraw; split <;> rfl
@[simp] theorem countDraw_syscallStall : (s.countDraw b).syscallStall = s.syscallStall := by unfold State.countDraw; split <;> rfl
@[simp] theorem countDraw_bdPending : (s.countDraw b).bdPending = s.bdPending := by unfold State.countDraw; split <;> rfl
@[simp] theorem countDraw_lastBtaken : (s.countDraw b).lastBtaken = s.lastBtaken := by unfold State.countDraw; split <;> rfl
@[simp] theorem countDraw_lastBd : (s.countDraw b).lastBd = s.lastBd := by unfold State.countDraw; split <;> rfl
@[simp] theorem countDraw_lastBtgt : (s.countDraw b).lastBtgt = s.lastBtgt := by unfold State.countDraw; split <;> rfl
@[simp] theorem countDraw_nfetched : (s.countDraw b).nfetched = s.nfetched := by unfold State.countDraw; split <;> rfl
@[simp] theorem countDraw_ifid : (s.countDraw b).ifid = s.ifid := by unfold State.countDraw; split <;> rfl
@[simp] theorem countDraw_idex : (s.countDraw b).idex = s.idex := by unfold State.countDraw; split <;> rfl
@[simp] theorem countDraw_exmem : (s.countDraw b).exmem = s.exmem := by unfold State.countDraw; split <;> rfl
@[simp] theorem countDraw_memwb : (s.countDraw b).memwb = s.memwb := by unfold State.countDraw; split <;> rfl
@[simp] theorem countDraw_status : (s.countDraw b).status = s.status := by unfold State.countDraw; split <;> rfl
@[simp] theorem countDraw_mem : (s.countDraw b).mem = s.mem := by unfold State.countDraw; split <;> rfl
@[simp] theorem countDraw_os : (s.countDraw b).os = s.os := by unfold State.countDraw; split <;> rfl
@[simp] theorem countDraw_params : (s.countDraw b).params = s.params := by unfold State.countDraw; split <;> rfl
@[simp] theorem countDraw_sysReplies : (s.countDraw b).sysReplies = s.sysReplies := by unfold State.countDraw; split <;> rfl
@[simp] theorem countDraw_draws : (s.countDraw b).draws = (if b then s.draws + 1 else s.draws) := by unfold State.countDraw; split <;> rfl

end countDraw

section afterIssue
variable (s : State) (r : Record)

@[simp] theorem afterIssue_gpr : (s.afterIssue r).gpr = s.gpr := rfl
@[simp] theorem afterIssue_byp : (s.afterIssue r).byp = s.byp := rfl
@[simp] theorem afterIssue_fpr : (s.afterIssue r).fpr = s.fpr := rfl
@[simp] theorem afterIssue_hi : (s.afterIssue r).hi = s.hi := rfl
@[simp] theorem afterIssue_lo : (s.afterIssue r).lo = s.lo := rfl
@[simp] theorem afterIssue_pc : (s.afterIssue r).pc = s.pc := rfl
@[simp] theorem afterIssue_wflag : (s.afterIssue r).wflag = s.wflag := rfl
@[simp] theorem afterIssue_decoderStall : (s.afterIssue r).decoderStall = s.decoderStall := rfl
@[simp] theorem afterIssue_branchStall : (s.afterIssue r).branchStall = s.branchStall := rfl
@[simp] theorem afterIssue_syscallStall : (s.afterIssue r).syscallStall = (s.syscallStall || r.isSyscall) := rfl
@[simp] theorem afterIssue_bdPending : (s.afterIssue r).bdPending = r.isCT := rfl
@[simp] theorem afterIssue_lastBtaken : (s.afterIssue r).lastBtaken = s.lastBtaken := rfl
@[simp] theorem afterIssue_lastBd : (s.afterIssue r).lastBd = s.lastBd := rfl
@[simp] theorem afterIssue_lastBtgt : (s.afterIssue r).lastBtgt = s.lastBtgt := rfl
@[simp] theorem afterIssue_nfetched : (s.afterIssue r).nfetched = s.nfetched := rfl
@[simp] theorem afterIssue_ifid : (s.afterIssue r).ifid = s.ifid := rfl
@[simp] theorem afterIssue_idex : (s.afterIssue r).idex = s.idex := rfl
@[simp] theorem afterIssue_exmem : (s.afterIssue r).exmem = s.exmem := rfl
@[simp] theorem afterIssue_memwb : (s.afterIssue r).memwb = s.memwb := rfl
@[simp] theorem afterIssue_status : (s.afterIssue r).status = s.status := rfl
@[simp] theorem afterIssue_mem : (s.afterIssue r).mem = s.mem := rfl
@[simp] theorem afterIssue_os : (s.afterIssue r).os = s.os := rfl
@[simp] theorem afterIssue_params : (s.afterIssue r).params = s.params := rfl
@[simp] theorem afterIssue_sysReplies : (s.afterIssue r).sysReplies = s.sysReplies := rfl
@[simp] theorem afterIssue_draws : (s.afterIssue r).draws = s.draws := rfl

end afterIssue

section loadLatches
variable (s : State) (d e m : Record)

@[simp] theorem loadLatches_gpr : (s.loadLatches d e m).gpr = s.gpr := rfl
@[simp] theorem loadLatches_byp : (s.loadLatches d e m).byp = s.byp := rfl
@[simp] theorem loadLatches_fpr : (s.loadLatches d e m).fpr = s.fpr := rfl
@[simp] theorem loadLatches_hi : (s.loadLatches d e m).hi = s.hi := rfl
@[simp] theorem loadLatches_lo : (s.loadLatches d e m).lo = s.lo := rfl
@[simp] theorem loadLatches_pc : (s.loadLatches d e m).pc = s.pc := rfl
@[simp] theorem loadLatches_wflag : (s.loadLatches d e m).wflag = s.wflag := rfl
@[simp] theorem loadLatches_decoderStall : (s.loadLatches d e m).decoderStall = s.decoderStall := rfl
@[simp] theorem loadLatches_branchStall : (s.loadLatches d e m).branchStall = s.branchStall := rfl
@[simp] theorem loadLatches_syscallStall : (s.loadLatches d e m).syscallStall = s.syscallStall := rfl
@[simp] theorem loadLatches_bdPending : (s.loadLatches d e m).bdPending = s.bdPending := rfl
@[simp] theorem loadLatches_lastBtaken : (s.loadLatches d e m).lastBtaken = s.lastBtaken := rfl
@[simp] theorem loadLatches_lastBd : (s.loadLatches d e m).lastBd = s.lastBd := rfl
@[simp] theorem loadLatches_lastBtgt : (s.loadLatches d e m).lastBtgt = s.lastBtgt := rfl
@[simp] theorem loadLatches_nfetched : (s.loadLatches d e m).nfetched = s.nfetched := rfl
@[simp] theorem loadLatches_ifid : (s.loadLatches d e m).ifid = s.ifid := rfl
@[simp] theorem loadLatches_idex : (s.loadLatches d e m).idex = d := rfl
@[simp] theorem loadLatches_exmem : (s.loadLatches d e m).exmem = e := rfl
@[simp] theorem loadLatches_memwb : (s.loadLatches d e m).memwb = m := rfl
@[simp] theorem loadLatches_status : (s.loadLatches d e m).status = s.status := rfl
@[simp] theorem loadLatches_mem : (s.loadLatches d e m).mem = s.mem := rfl
@[simp] theorem loadLatches_os : (s.loadLatches d e m).os = s.os := rfl
@[simp] theorem loadLatches_params : (s.loadLatches d e m).params = s.params := rfl
@[simp] theorem loadLatches_sysReplies : (s.loadLatches d e m).sysReplies = s.sysReplies := rfl
@[simp] theorem loadLatches_draws : (s.loadLatches d e m).draws = s.draws := rfl

end loadLatches

end Sys2Proof.Machine
end

