-- ==== Sys2Proof/Laws/Stages.lean ====
section
/-! SUPPORT. What each stage of Machine/Stages.lean can write: the fields it leaves alone, one lemma per
field, and the cases of the Writeback step. -/

namespace Sys2Proof.Machine

section exCommit
variable (e : Record) (s : State)

@[simp] theorem exCommit_gpr : (exCommit e s).gpr = s.gpr := by unfold exCommit; split <;> (try split) <;> rfl
@[simp] theorem exCommit_fpr : (exCommit e s).fpr = s.fpr := by unfold exCommit; split <;> (try split) <;> rfl
@[simp] theorem exCommit_hi : (exCommit e s).hi = s.hi := by unfold exCommit; split <;> (try split) <;> rfl
@[simp] theorem exCommit_lo : (exCommit e s).lo = s.lo := by unfold exCommit; split <;> (try split) <;> rfl
@[simp] theorem exCommit_pc : (exCommit e s).pc = s.pc := by unfold exCommit; split <;> (try split) <;> rfl
@[simp] theorem exCommit_decoderStall : (exCommit e s).decoderStall = s.decoderStall := by unfold exCommit; split <;> (try split) <;> rfl
@[simp] theorem exCommit_branchStall : (exCommit e s).branchStall = s.branchStall := by unfold exCommit; split <;> (try split) <;> rfl
@[simp] theorem exCommit_syscallStall : (exCommit e s).syscallStall = s.syscallStall := by unfold exCommit; split <;> (try split) <;> rfl
@[simp] theorem exCommit_bdPending : (exCommit e s).bdPending = s.bdPending := by unfold exCommit; split <;> (try split) <;> rfl
@[simp] theorem exCommit_lastBtaken : (exCommit e s).lastBtaken = s.lastBtaken := by unfold exCommit; split <;> (try split) <;> rfl
@[simp] theorem exCommit_lastBd : (exCommit e s).lastBd = s.lastBd := by unfold exCommit; split <;> (try split) <;> rfl
@[simp] theorem exCommit_lastBtgt : (exCommit e s).lastBtgt = s.lastBtgt := by unfold exCommit; split <;> (try split) <;> rfl
@[simp] theorem exCommit_nfetched : (exCommit e s).nfetched = s.nfetched := by unfold exCommit; split <;> (try split) <;> rfl
@[simp] theorem exCommit_ifid : (exCommit e s).ifid = s.ifid := by unfold exCommit; split <;> (try split) <;> rfl
@[simp] theorem exCommit_idex : (exCommit e s).idex = s.idex := by unfold exCommit; split <;> (try split) <;> rfl
@[simp] theorem exCommit_exmem : (exCommit e s).exmem = s.exmem := by unfold exCommit; split <;> (try split) <;> rfl
@[simp] theorem exCommit_memwb : (exCommit e s).memwb = s.memwb := by unfold exCommit; split <;> (try split) <;> rfl
@[simp] theorem exCommit_status : (exCommit e s).status = s.status := by unfold exCommit; split <;> (try split) <;> rfl
@[simp] theorem exCommit_mem : (exCommit e s).mem = s.mem := by unfold exCommit; split <;> (try split) <;> rfl
@[simp] theorem exCommit_os : (exCommit e s).os = s.os := by unfold exCommit; split <;> (try split) <;> rfl
@[simp] theorem exCommit_params : (exCommit e s).params = s.params := by unfold exCommit; split <;> (try split) <;> rfl
@[simp] theorem exCommit_sysReplies : (exCommit e s).sysReplies = s.sysReplies := by unfold exCommit; split <;> (try split) <;> rfl
@[simp] theorem exCommit_draws : (exCommit e s).draws = s.draws := by unfold exCommit; split <;> (try split) <;> rfl

end exCommit

section exBranch
variable (e : Record) (s : State)

@[simp] theorem exBranch_gpr : (exBranch e s).gpr = s.gpr := by unfold exBranch; split <;> simp
@[simp] theorem exBranch_byp : (exBranch e s).byp = s.byp := by unfold exBranch; split <;> simp
@[simp] theorem exBranch_fpr : (exBranch e s).fpr = s.fpr := by unfold exBranch; split <;> simp
@[simp] theorem exBranch_hi : (exBranch e s).hi = s.hi := by unfold exBranch; split <;> simp
@[simp] theorem exBranch_lo : (exBranch e s).lo = s.lo := by unfold exBranch; split <;> simp
@[simp] theorem exBranch_wflag : (exBranch e s).wflag = s.wflag := by unfold exBranch; split <;> simp
@[simp] theorem exBranch_decoderStall : (exBranch e s).decoderStall = s.decoderStall := by unfold exBranch; split <;> simp
@[simp] theorem exBranch_branchStall : (exBranch e s).branchStall = s.branchStall := by unfold exBranch; split <;> simp
@[simp] theorem exBranch_syscallStall : (exBranch e s).syscallStall = s.syscallStall := by unfold exBranch; split <;> simp
@[simp] theorem exBranch_bdPending : (exBranch e s).bdPending = s.bdPending := by unfold exBranch; split <;> simp
@[simp] theorem exBranch_nfetched : (exBranch e s).nfetched = s.nfetched := by unfold exBranch; split <;> simp
@[simp] theorem exBranch_ifid : (exBranch e s).ifid = s.ifid := by unfold exBranch; split <;> simp
@[simp] theorem exBranch_idex : (exBranch e s).idex = s.idex := by unfold exBranch; split <;> simp
@[simp] theorem exBranch_exmem : (exBranch e s).exmem = s.exmem := by unfold exBranch; split <;> simp
@[simp] theorem exBranch_memwb : (exBranch e s).memwb = s.memwb := by unfold exBranch; split <;> simp
@[simp] theorem exBranch_status : (exBranch e s).status = s.status := by unfold exBranch; split <;> simp
@[simp] theorem exBranch_mem : (exBranch e s).mem = s.mem := by unfold exBranch; split <;> simp
@[simp] theorem exBranch_os : (exBranch e s).os = s.os := by unfold exBranch; split <;> simp
@[simp] theorem exBranch_params : (exBranch e s).params = s.params := by unfold exBranch; split <;> simp
@[simp] theorem exBranch_sysReplies : (exBranch e s).sysReplies = s.sysReplies := by unfold exBranch; split <;> simp
@[simp] theorem exBranch_draws : (exBranch e s).draws = s.draws := by unfold exBranch; split <;> simp

end exBranch

section exState
variable (operate : Record → Record) (e : Record) (s : State)

@[simp] theorem exState_gpr : (exState operate e s).gpr = s.gpr := by unfold exState; dsimp only; split <;> simp
@[simp] theorem exState_fpr : (exState operate e s).fpr = s.fpr := by unfold exState; dsimp only; split <;> simp
@[simp] theorem exState_hi : (exState operate e s).hi = s.hi := by unfold exState; dsimp only; split <;> simp
@[simp] theorem exState_lo : (exState operate e s).lo = s.lo := by unfold exState; dsimp only; split <;> simp
@[simp] theorem exState_decoderStall : (exState operate e s).decoderStall = s.decoderStall := by unfold exState; dsimp only; split <;> simp
@[simp] theorem exState_branchStall : (exState operate e s).branchStall = s.branchStall := by unfold exState; dsimp only; split <;> simp
@[simp] theorem exState_syscallStall : (exState operate e s).syscallStall = s.syscallStall := by unfold exState; dsimp only; split <;> simp
@[simp] theorem exState_bdPending : (exState operate e s).bdPending = s.bdPending := by unfold exState; dsimp only; split <;> simp
@[simp] theorem exState_nfetched : (exState operate e s).nfetched = s.nfetched := by unfold exState; dsimp only; split <;> simp
@[simp] theorem exState_ifid : (exState operate e s).ifid = s.ifid := by unfold exState; dsimp only; split <;> simp
@[simp] theorem exState_idex : (exState operate e s).idex = s.idex := by unfold exState; dsimp only; split <;> simp
@[simp] theorem exState_exmem : (exState operate e s).exmem = s.exmem := by unfold exState; dsimp only; split <;> simp
@[simp] theorem exState_memwb : (exState operate e s).memwb = s.memwb := by unfold exState; dsimp only; split <;> simp
@[simp] theorem exState_status : (exState operate e s).status = s.status := by unfold exState; dsimp only; split <;> simp
@[simp] theorem exState_mem : (exState operate e s).mem = s.mem := by unfold exState; dsimp only; split <;> simp
@[simp] theorem exState_os : (exState operate e s).os = s.os := by unfold exState; dsimp only; split <;> simp
@[simp] theorem exState_params : (exState operate e s).params = s.params := by unfold exState; dsimp only; split <;> simp
@[simp] theorem exState_sysReplies : (exState operate e s).sysReplies = s.sysReplies := by unfold exState; dsimp only; split <;> simp
@[simp] theorem exState_draws : (exState operate e s).draws = s.draws := by unfold exState; dsimp only; split <;> simp

end exState

section memAccess
variable (k : MemKind) (m : Record) (s : State)

@[simp] theorem memAccess_gpr : (memAccess k m s).gpr = s.gpr := by unfold memAccess; split <;> (try split) <;> simp
@[simp] theorem memAccess_fpr : (memAccess k m s).fpr = s.fpr := by unfold memAccess; split <;> (try split) <;> simp
@[simp] theorem memAccess_hi : (memAccess k m s).hi = s.hi := by unfold memAccess; split <;> (try split) <;> simp
@[simp] theorem memAccess_lo : (memAccess k m s).lo = s.lo := by unfold memAccess; split <;> (try split) <;> simp
@[simp] theorem memAccess_pc : (memAccess k m s).pc = s.pc := by unfold memAccess; split <;> (try split) <;> simp
@[simp] theorem memAccess_wflag : (memAccess k m s).wflag = s.wflag := by unfold memAccess; split <;> (try split) <;> simp
@[simp] theorem memAccess_decoderStall : (memAccess k m s).decoderStall = s.decoderStall := by unfold memAccess; split <;> (try split) <;> simp
@[simp] theorem memAccess_branchStall : (memAccess k m s).branchStall = s.branchStall := by unfold memAccess; split <;> (try split) <;> simp
@[simp] theorem memAccess_syscallStall : (memAccess k m s).syscallStall = s.syscallStall := by unfold memAccess; split <;> (try split) <;> simp
@[simp] theorem memAccess_bdPending : (memAccess k m s).bdPending = s.bdPending := by unfold memAccess; split <;> (try split) <;> simp
@[simp] theorem memAccess_lastBtaken : (memAccess k m s).lastBtaken = s.lastBtaken := by unfold memAccess; split <;> (try split) <;> simp
@[simp] theorem memAccess_lastBd : (memAccess k m s).lastBd = s.lastBd := by unfold memAccess; split <;> (try split) <;> simp
@[simp] theorem memAccess_lastBtgt : (memAccess k m s).lastBtgt = s.lastBtgt := by unfold memAccess; split <;> (try split) <;> simp
@[simp] theorem memAccess_nfetched : (memAccess k m s).nfetched = s.nfetched := by unfold memAccess; split <;> (try split) <;> simp
@[simp] theorem memAccess_ifid : (memAccess k m s).ifid = s.ifid := by unfold memAccess; split <;> (try split) <;> simp
@[simp] theorem memAccess_idex : (memAccess k m s).idex = s.idex := by unfold memAccess; split <;> (try split) <;> simp
@[simp] theorem memAccess_exmem : (memAccess k m s).exmem = s.exmem := by unfold memAccess; split <;> (try split) <;> simp
@[simp] theorem memAccess_memwb : (memAccess k m s).memwb = s.memwb := by unfold memAccess; split <;> (try split) <;> simp
@[simp] theorem memAccess_status : (memAccess k m s).status = s.status := by unfold memAccess; split <;> (try split) <;> simp
@[simp] theorem memAccess_os : (memAccess k m s).os = s.os := by unfold memAccess; split <;> (try split) <;> simp
@[simp] theorem memAccess_params : (memAccess k m s).params = s.params := by unfold memAccess; split <;> (try split) <;> simp
@[simp] theorem memAccess_sysReplies : (memAccess k m s).sysReplies = s.sysReplies := by unfold memAccess; split <;> (try split) <;> simp
@[simp] theorem memAccess_draws : (memAccess k m s).draws = s.draws := by unfold memAccess; split <;> (try split) <;> simp

end memAccess

section memState
variable (m : Record) (s : State)

@[simp] theorem memState_gpr : (memState m s).gpr = s.gpr := by unfold memState; split <;> (try split) <;> simp
@[simp] theorem memState_fpr : (memState m s).fpr = s.fpr := by unfold memState; split <;> (try split) <;> simp
@[simp] theorem memState_hi : (memState m s).hi = s.hi := by unfold memState; split <;> (try split) <;> simp
@[simp] theorem memState_lo : (memState m s).lo = s.lo := by unfold memState; split <;> (try split) <;> simp
@[simp] theorem memState_pc : (memState m s).pc = s.pc := by unfold memState; split <;> (try split) <;> simp
@[simp] theorem memState_wflag : (memState m s).wflag = s.wflag := by unfold memState; split <;> (try split) <;> simp
@[simp] theorem memState_decoderStall : (memState m s).decoderStall = s.decoderStall := by unfold memState; split <;> (try split) <;> simp
@[simp] theorem memState_branchStall : (memState m s).branchStall = s.branchStall := by unfold memState; split <;> (try split) <;> simp
@[simp] theorem memState_syscallStall : (memState m s).syscallStall = s.syscallStall := by unfold memState; split <;> (try split) <;> simp
@[simp] theorem memState_bdPending : (memState m s).bdPending = s.bdPending := by unfold memState; split <;> (try split) <;> simp
@[simp] theorem memState_lastBtaken : (memState m s).lastBtaken = s.lastBtaken := by unfold memState; split <;> (try split) <;> simp
@[simp] theorem memState_lastBd : (memState m s).lastBd = s.lastBd := by unfold memState; split <;> (try split) <;> simp
@[simp] theorem memState_lastBtgt : (memState m s).lastBtgt = s.lastBtgt := by unfold memState; split <;> (try split) <;> simp
@[simp] theorem memState_nfetched : (memState m s).nfetched = s.nfetched := by unfold memState; split <;> (try split) <;> simp
@[simp] theorem memState_ifid : (memState m s).ifid = s.ifid := by unfold memState; split <;> (try split) <;> simp
@[simp] theorem memState_idex : (memState m s).idex = s.idex := by unfold memState; split <;> (try split) <;> simp
@[simp] theorem memState_exmem : (memState m s).exmem = s.exmem := by unfold memState; split <;> (try split) <;> simp
@[simp] theorem memState_memwb : (memState m s).memwb = s.memwb := by unfold memState; split <;> (try split) <;> simp
@[simp] theorem memState_status : (memState m s).status = s.status := by unfold memState; split <;> (try split) <;> simp
@[simp] theorem memState_os : (memState m s).os = s.os := by unfold memState; split <;> (try split) <;> simp
@[simp] theorem memState_params : (memState m s).params = s.params := by unfold memState; split <;> (try split) <;> simp
@[simp] theorem memState_sysReplies : (memState m s).sysReplies = s.sysReplies := by unfold memState; split <;> (try split) <;> simp
@[simp] theorem memState_draws : (memState m s).draws = s.draws := by unfold memState; split <;> (try split) <;> simp

end memState

section commit
variable (w : Record) (s : State)

@[simp] theorem commit_byp : (commit w s).byp = s.byp := by unfold commit; split <;> rfl
@[simp] theorem commit_pc : (commit w s).pc = s.pc := by unfold commit; split <;> rfl
@[simp] theorem commit_wflag : (commit w s).wflag = s.wflag := by unfold commit; split <;> rfl
@[simp] theorem commit_decoderStall : (commit w s).decoderStall = s.decoderStall := by unfold commit; split <;> rfl
@[simp] theorem commit_branchStall : (commit w s).branchStall = s.branchStall := by unfold commit; split <;> rfl
@[simp] theorem commit_syscallStall : (commit w s).syscallStall = s.syscallStall := by unfold commit; split <;> rfl
@[simp] theorem commit_bdPending : (commit w s).bdPending = s.bdPending := by unfold commit; split <;> rfl
@[simp] theorem commit_lastBtaken : (commit w s).lastBtaken = s.lastBtaken := by unfold commit; split <;> rfl
@[simp] theorem commit_lastBd : (commit w s).lastBd = s.lastBd := by unfold commit; split <;> rfl
@[simp] theorem commit_lastBtgt : (commit w s).lastBtgt = s.lastBtgt := by unfold commit; split <;> rfl
@[simp] theorem commit_nfetched : (commit w s).nfetched = s.nfetched := by unfold commit; split <;> rfl
@[simp] theorem commit_ifid : (commit w s).ifid = s.ifid := by unfold commit; split <;> rfl
@[simp] theorem commit_idex : (commit w s).idex = s.idex := by unfold commit; split <;> rfl
@[simp] theorem commit_exmem : (commit w s).exmem = s.exmem := by unfold commit; split <;> rfl
@[simp] theorem commit_memwb : (commit w s).memwb = s.memwb := by unfold commit; split <;> rfl
@[simp] theorem commit_status : (commit w s).status = s.status := by unfold commit; split <;> rfl
@[simp] theorem commit_mem : (commit w s).mem = s.mem := by unfold commit; split <;> rfl
@[simp] theorem commit_os : (commit w s).os = s.os := by unfold commit; split <;> rfl
@[simp] theorem commit_params : (commit w s).params = s.params := by unfold commit; split <;> rfl
@[simp] theorem commit_sysReplies : (commit w s).sysReplies = s.sysReplies := by unfold commit; split <;> rfl
@[simp] theorem commit_draws : (commit w s).draws = s.draws := by unfold commit; split <;> rfl

end commit

section trap
variable (w : Record) (s : State)

@[simp] theorem trap_fpr : (s.trap w).fpr = s.fpr := by unfold State.trap State.trapWith; dsimp only; split <;> rfl
@[simp] theorem trap_hi : (s.trap w).hi = s.hi := by unfold State.trap State.trapWith; dsimp only; split <;> rfl
@[simp] theorem trap_lo : (s.trap w).lo = s.lo := by unfold State.trap State.trapWith; dsimp only; split <;> rfl
@[simp] theorem trap_decoderStall : (s.trap w).decoderStall = s.decoderStall := by unfold State.trap State.trapWith; dsimp only; split <;> rfl
@[simp] theorem trap_branchStall : (s.trap w).branchStall = s.branchStall := by unfold State.trap State.trapWith; dsimp only; split <;> rfl
@[simp] theorem trap_bdPending : (s.trap w).bdPending = s.bdPending := by unfold State.trap State.trapWith; dsimp only; split <;> rfl
@[simp] theorem trap_lastBtaken : (s.trap w).lastBtaken = s.lastBtaken := by unfold State.trap State.trapWith; dsimp only; split <;> rfl
@[simp] theorem trap_lastBd : (s.trap w).lastBd = s.lastBd := by unfold State.trap State.trapWith; dsimp only; split <;> rfl
@[simp] theorem trap_lastBtgt : (s.trap w).lastBtgt = s.lastBtgt := by unfold State.trap State.trapWith; dsimp only; split <;> rfl
@[simp] theorem trap_ifid : (s.trap w).ifid = s.ifid := by unfold State.trap State.trapWith; dsimp only; split <;> rfl
@[simp] theorem trap_idex : (s.trap w).idex = s.idex := by unfold State.trap State.trapWith; dsimp only; split <;> rfl
@[simp] theorem trap_exmem : (s.trap w).exmem = s.exmem := by unfold State.trap State.trapWith; dsimp only; split <;> rfl
@[simp] theorem trap_memwb : (s.trap w).memwb = s.memwb := by unfold State.trap State.trapWith; dsimp only; split <;> rfl
@[simp] theorem trap_params : (s.trap w).params = s.params := by unfold State.trap State.trapWith; dsimp only; split <;> rfl
@[simp] theorem trap_draws : (s.trap w).draws = s.draws := by unfold State.trap State.trapWith; dsimp only; split <;> rfl

end trap

section wbState
variable (w : Record) (s : State)

@[simp] theorem wbState_decoderStall : (wbState w s).decoderStall = s.decoderStall := by unfold wbState; split <;> (try split) <;> (try split) <;> (try split) <;> simp
@[simp] theorem wbState_branchStall : (wbState w s).branchStall = s.branchStall := by unfold wbState; split <;> (try split) <;> (try split) <;> (try split) <;> simp
@[simp] theorem wbState_bdPending : (wbState w s).bdPending = s.bdPending := by unfold wbState; split <;> (try split) <;> (try split) <;> (try split) <;> simp
@[simp] theorem wbState_lastBtaken : (wbState w s).lastBtaken = s.lastBtaken := by unfold wbState; split <;> (try split) <;> (try split) <;> (try split) <;> simp
@[simp] theorem wbState_lastBd : (wbState w s).lastBd = s.lastBd := by unfold wbState; split <;> (try split) <;> (try split) <;> (try split) <;> simp
@[simp] theorem wbState_lastBtgt : (wbState w s).lastBtgt = s.lastBtgt := by unfold wbState; split <;> (try split) <;> (try split) <;> (try split) <;> simp
@[simp] theorem wbState_ifid : (wbState w s).ifid = s.ifid := by unfold wbState; split <;> (try split) <;> (try split) <;> (try split) <;> simp
@[simp] theorem wbState_idex : (wbState w s).idex = s.idex := by unfold wbState; split <;> (try split) <;> (try split) <;> (try split) <;> simp
@[simp] theorem wbState_exmem : (wbState w s).exmem = s.exmem := by unfold wbState; split <;> (try split) <;> (try split) <;> (try split) <;> simp
@[simp] theorem wbState_memwb : (wbState w s).memwb = s.memwb := by unfold wbState; split <;> (try split) <;> (try split) <;> (try split) <;> simp
@[simp] theorem wbState_params : (wbState w s).params = s.params := by unfold wbState; split <;> (try split) <;> (try split) <;> (try split) <;> simp
@[simp] theorem wbState_draws : (wbState w s).draws = s.draws := by unfold wbState; split <;> (try split) <;> (try split) <;> (try split) <;> simp

end wbState

section issueState
variable (op : Op) (h : Handler) (d : FetchLatch) (e m : Record) (s : State)

@[simp] theorem issueState_gpr : (issueState op h d e m s).gpr = s.gpr := by simp [issueState]
@[simp] theorem issueState_byp : (issueState op h d e m s).byp = s.byp := by simp [issueState]
@[simp] theorem issueState_fpr : (issueState op h d e m s).fpr = s.fpr := by simp [issueState]
@[simp] theorem issueState_hi : (issueState op h d e m s).hi = s.hi := by simp [issueState]
@[simp] theorem issueState_lo : (issueState op h d e m s).lo = s.lo := by simp [issueState]
@[simp] theorem issueState_pc : (issueState op h d e m s).pc = s.pc := by simp [issueState]
@[simp] theorem issueState_wflag : (issueState op h d e m s).wflag = s.wflag := by simp [issueState]
@[simp] theorem issueState_decoderStall : (issueState op h d e m s).decoderStall = s.decoderStall := by simp [issueState]
@[simp] theorem issueState_branchStall : (issueState op h d e m s).branchStall = s.branchStall := by simp [issueState]
@[simp] theorem issueState_lastBtaken : (issueState op h d e m s).lastBtaken = s.lastBtaken := by simp [issueState]
@[simp] theorem issueState_lastBd : (issueState op h d e m s).lastBd = s.lastBd := by simp [issueState]
@[simp] theorem issueState_lastBtgt : (issueState op h d e m s).lastBtgt = s.lastBtgt := by simp [issueState]
@[simp] theorem issueState_nfetched : (issueState op h d e m s).nfetched = s.nfetched := by simp [issueState]
@[simp] theorem issueState_ifid : (issueState op h d e m s).ifid = s.ifid := by simp [issueState]
@[simp] theorem issueState_idex : (issueState op h d e m s).idex = s.idex := by simp [issueState]
@[simp] theorem issueState_exmem : (issueState op h d e m s).exmem = s.exmem := by simp [issueState]
@[simp] theorem issueState_memwb : (issueState op h d e m s).memwb = s.memwb := by simp [issueState]
@[simp] theorem issueState_status : (issueState op h d e m s).status = s.status := by simp [issueState]
@[simp] theorem issueState_mem : (issueState op h d e m s).mem = s.mem := by simp [issueState]
@[simp] theorem issueState_os : (issueState op h d e m s).os = s.os := by simp [issueState]
@[simp] theorem issueState_params : (issueState op h d e m s).params = s.params := by simp [issueState]
@[simp] theorem issueState_sysReplies : (issueState op h d e m s).sysReplies = s.sysReplies := by simp [issueState]

end issueState

section ifState
variable (c ss bs : Bool) (s : State)

@[simp] theorem ifState_gpr : (ifState c ss bs s).gpr = s.gpr := by unfold ifState; split <;> (try split) <;> rfl
@[simp] theorem ifState_byp : (ifState c ss bs s).byp = s.byp := by unfold ifState; split <;> (try split) <;> rfl
@[simp] theorem ifState_fpr : (ifState c ss bs s).fpr = s.fpr := by unfold ifState; split <;> (try split) <;> rfl
@[simp] theorem ifState_hi : (ifState c ss bs s).hi = s.hi := by unfold ifState; split <;> (try split) <;> rfl
@[simp] theorem ifState_lo : (ifState c ss bs s).lo = s.lo := by unfold ifState; split <;> (try split) <;> rfl
@[simp] theorem ifState_wflag : (ifState c ss bs s).wflag = s.wflag := by unfold ifState; split <;> (try split) <;> rfl
@[simp] theorem ifState_decoderStall : (ifState c ss bs s).decoderStall = s.decoderStall := by unfold ifState; split <;> (try split) <;> rfl
@[simp] theorem ifState_branchStall : (ifState c ss bs s).branchStall = s.branchStall := by unfold ifState; split <;> (try split) <;> rfl
@[simp] theorem ifState_syscallStall : (ifState c ss bs s).syscallStall = s.syscallStall := by unfold ifState; split <;> (try split) <;> rfl
@[simp] theorem ifState_bdPending : (ifState c ss bs s).bdPending = s.bdPending := by unfold ifState; split <;> (try split) <;> rfl
@[simp] theorem ifState_lastBtaken : (ifState c ss bs s).lastBtaken = s.lastBtaken := by unfold ifState; split <;> (try split) <;> rfl
@[simp] theorem ifState_lastBd : (ifState c ss bs s).lastBd = s.lastBd := by unfold ifState; split <;> (try split) <;> rfl
@[simp] theorem ifState_lastBtgt : (ifState c ss bs s).lastBtgt = s.lastBtgt := by unfold ifState; split <;> (try split) <;> rfl
@[simp] theorem ifState_idex : (ifState c ss bs s).idex = s.idex := by unfold ifState; split <;> (try split) <;> rfl
@[simp] theorem ifState_exmem : (ifState c ss bs s).exmem = s.exmem := by unfold ifState; split <;> (try split) <;> rfl
@[simp] theorem ifState_memwb : (ifState c ss bs s).memwb = s.memwb := by unfold ifState; split <;> (try split) <;> rfl
@[simp] theorem ifState_status : (ifState c ss bs s).status = s.status := by unfold ifState; split <;> (try split) <;> rfl
@[simp] theorem ifState_mem : (ifState c ss bs s).mem = s.mem := by unfold ifState; split <;> (try split) <;> rfl
@[simp] theorem ifState_os : (ifState c ss bs s).os = s.os := by unfold ifState; split <;> (try split) <;> rfl
@[simp] theorem ifState_params : (ifState c ss bs s).params = s.params := by unfold ifState; split <;> (try split) <;> rfl
@[simp] theorem ifState_sysReplies : (ifState c ss bs s).sysReplies = s.sysReplies := by unfold ifState; split <;> (try split) <;> rfl
@[simp] theorem ifState_draws : (ifState c ss bs s).draws = s.draws := by unfold ifState; split <;> (try split) <;> rfl

end ifState

section budgetCheck
variable (s : State)

@[simp] theorem budgetCheck_gpr : (s.budgetCheck).gpr = s.gpr := by unfold State.budgetCheck; split <;> rfl
@[simp] theorem budgetCheck_byp : (s.budgetCheck).byp = s.byp := by unfold State.budgetCheck; split <;> rfl
@[simp] theorem budgetCheck_fpr : (s.budgetCheck).fpr = s.fpr := by unfold State.budgetCheck; split <;> rfl
@[simp] theorem budgetCheck_hi : (s.budgetCheck).hi = s.hi := by unfold State.budgetCheck; split <;> rfl
@[simp] theorem budgetCheck_lo : (s.budgetCheck).lo = s.lo := by unfold State.budgetCheck; split <;> rfl
@[simp] theorem budgetCheck_pc : (s.budgetCheck).pc = s.pc := by unfold State.budgetCheck; split <;> rfl
@[simp] theorem budgetCheck_wflag : (s.budgetCheck).wflag = s.wflag := by unfold State.budgetCheck; split <;> rfl
@[simp] theorem budgetCheck_decoderStall : (s.budgetCheck).decoderStall = s.decoderStall := by unfold State.budgetCheck; split <;> rfl
@[simp] theorem budgetCheck_branchStall : (s.budgetCheck).branchStall = s.branchStall := by unfold State.budgetCheck; split <;> rfl
@[simp] theorem budgetCheck_syscallStall : (s.budgetCheck).syscallStall = s.syscallStall := by unfold State.budgetCheck; split <;> rfl
@[simp] theorem budgetCheck_bdPending : (s.budgetCheck).bdPending = s.bdPending := by unfold State.budgetCheck; split <;> rfl
@[simp] theorem budgetCheck_lastBtaken : (s.budgetCheck).lastBtaken = s.lastBtaken := by unfold State.budgetCheck; split <;> rfl
@[simp] theorem budgetCheck_lastBd : (s.budgetCheck).lastBd = s.lastBd := by unfold State.budgetCheck; split <;> rfl
@[simp] theorem budgetCheck_lastBtgt : (s.budgetCheck).lastBtgt = s.lastBtgt := by unfold State.budgetCheck; split <;> rfl
@[simp] theorem budgetCheck_nfetched : (s.budgetCheck).nfetched = s.nfetched := by unfold State.budgetCheck; split <;> rfl
@[simp] theorem budgetCheck_ifid : (s.budgetCheck).ifid = s.ifid := by unfold State.budgetCheck; split <;> rfl
@[simp] theorem budgetCheck_idex : (s.budgetCheck).idex = s.idex := by unfold State.budgetCheck; split <;> rfl
@[simp] theorem budgetCheck_exmem : (s.budgetCheck).exmem = s.exmem := by unfold State.budgetCheck; split <;> rfl
@[simp] theorem budgetCheck_memwb : (s.budgetCheck).memwb = s.memwb := by unfold State.budgetCheck; split <;> rfl
@[simp] theorem budgetCheck_mem : (s.budgetCheck).mem = s.mem := by unfold State.budgetCheck; split <;> rfl
@[simp] theorem budgetCheck_os : (s.budgetCheck).os = s.os := by unfold State.budgetCheck; split <;> rfl
@[simp] theorem budgetCheck_params : (s.budgetCheck).params = s.params := by unfold State.budgetCheck; split <;> rfl
@[simp] theorem budgetCheck_sysReplies : (s.budgetCheck).sysReplies = s.sysReplies := by unfold State.budgetCheck; split <;> rfl
@[simp] theorem budgetCheck_draws : (s.budgetCheck).draws = s.draws := by unfold State.budgetCheck; split <;> rfl

end budgetCheck

section idDecode
variable (d : FetchLatch) (e m w : Record) (s : State)

@[simp] theorem idDecode_gpr : ((idDecode d e m w s).state).gpr = s.gpr := by unfold idDecode; dsimp only; split <;> simp
@[simp] theorem idDecode_byp : ((idDecode d e m w s).state).byp = s.byp := by unfold idDecode; dsimp only; split <;> simp
@[simp] theorem idDecode_fpr : ((idDecode d e m w s).state).fpr = s.fpr := by unfold idDecode; dsimp only; split <;> simp
@[simp] theorem idDecode_hi : ((idDecode d e m w s).state).hi = s.hi := by unfold idDecode; dsimp only; split <;> simp
@[simp] theorem idDecode_lo : ((idDecode d e m w s).state).lo = s.lo := by unfold idDecode; dsimp only; split <;> simp
@[simp] theorem idDecode_pc : ((idDecode d e m w s).state).pc = s.pc := by unfold idDecode; dsimp only; split <;> simp
@[simp] theorem idDecode_wflag : ((idDecode d e m w s).state).wflag = s.wflag := by unfold idDecode; dsimp only; split <;> simp
@[simp] theorem idDecode_branchStall : ((idDecode d e m w s).state).branchStall = s.branchStall := by unfold idDecode; dsimp only; split <;> simp
@[simp] theorem idDecode_lastBtaken : ((idDecode d e m w s).state).lastBtaken = s.lastBtaken := by unfold idDecode; dsimp only; split <;> simp
@[simp] theorem idDecode_lastBd : ((idDecode d e m w s).state).lastBd = s.lastBd := by unfold idDecode; dsimp only; split <;> simp
@[simp] theorem idDecode_lastBtgt : ((idDecode d e m w s).state).lastBtgt = s.lastBtgt := by unfold idDecode; dsimp only; split <;> simp
@[simp] theorem idDecode_nfetched : ((idDecode d e m w s).state).nfetched = s.nfetched := by unfold idDecode; dsimp only; split <;> simp
@[simp] theorem idDecode_ifid : ((idDecode d e m w s).state).ifid = s.ifid := by unfold idDecode; dsimp only; split <;> simp
@[simp] theorem idDecode_idex : ((idDecode d e m w s).state).idex = s.idex := by unfold idDecode; dsimp only; split <;> simp
@[simp] theorem idDecode_exmem : ((idDecode d e m w s).state).exmem = s.exmem := by unfold idDecode; dsimp only; split <;> simp
@[simp] theorem idDecode_memwb : ((idDecode d e m w s).state).memwb = s.memwb := by unfold idDecode; dsimp only; split <;> simp
@[simp] theorem idDecode_status : ((idDecode d e m w s).state).status = s.status := by unfold idDecode; dsimp only; split <;> simp
@[simp] theorem idDecode_mem : ((idDecode d e m w s).state).mem = s.mem := by unfold idDecode; dsimp only; split <;> simp
@[simp] theorem idDecode_os : ((idDecode d e m w s).state).os = s.os := by unfold idDecode; dsimp only; split <;> simp
@[simp] theorem idDecode_params : ((idDecode d e m w s).state).params = s.params := by unfold idDecode; dsimp only; split <;> simp
@[simp] theorem idDecode_sysReplies : ((idDecode d e m w s).state).sysReplies = s.sysReplies := by unfold idDecode; dsimp only; split <;> simp

end idDecode

section idStep
variable (d : FetchLatch) (e m w : Record) (ss : Bool) (s : State)

@[simp] theorem idStep_gpr : ((idStep d e m w ss s).state).gpr = s.gpr := by unfold idStep; split <;> (try split) <;> (try split) <;> (try split) <;> simp
@[simp] theorem idStep_byp : ((idStep d e m w ss s).state).byp = s.byp := by unfold idStep; split <;> (try split) <;> (try split) <;> (try split) <;> simp
@[simp] theorem idStep_fpr : ((idStep d e m w ss s).state).fpr = s.fpr := by unfold idStep; split <;> (try split) <;> (try split) <;> (try split) <;> simp
@[simp] theorem idStep_hi : ((idStep d e m w ss s).state).hi = s.hi := by unfold idStep; split <;> (try split) <;> (try split) <;> (try split) <;> simp
@[simp] theorem idStep_lo : ((idStep d e m w ss s).state).lo = s.lo := by unfold idStep; split <;> (try split) <;> (try split) <;> (try split) <;> simp
@[simp] theorem idStep_pc : ((idStep d e m w ss s).state).pc = s.pc := by unfold idStep; split <;> (try split) <;> (try split) <;> (try split) <;> simp
@[simp] theorem idStep_wflag : ((idStep d e m w ss s).state).wflag = s.wflag := by unfold idStep; split <;> (try split) <;> (try split) <;> (try split) <;> simp
@[simp] theorem idStep_branchStall : ((idStep d e m w ss s).state).branchStall = s.branchStall := by unfold idStep; split <;> (try split) <;> (try split) <;> (try split) <;> simp
@[simp] theorem idStep_lastBtaken : ((idStep d e m w ss s).state).lastBtaken = s.lastBtaken := by unfold idStep; split <;> (try split) <;> (try split) <;> (try split) <;> simp
@[simp] theorem idStep_lastBd : ((idStep d e m w ss s).state).lastBd = s.lastBd := by unfold idStep; split <;> (try split) <;> (try split) <;> (try split) <;> simp
@[simp] theorem idStep_lastBtgt : ((idStep d e m w ss s).state).lastBtgt = s.lastBtgt := by unfold idStep; split <;> (try split) <;> (try split) <;> (try split) <;> simp
@[simp] theorem idStep_nfetched : ((idStep d e m w ss s).state).nfetched = s.nfetched := by unfold idStep; split <;> (try split) <;> (try split) <;> (try split) <;> simp
@[simp] theorem idStep_ifid : ((idStep d e m w ss s).state).ifid = s.ifid := by unfold idStep; split <;> (try split) <;> (try split) <;> (try split) <;> simp
@[simp] theorem idStep_idex : ((idStep d e m w ss s).state).idex = s.idex := by unfold idStep; split <;> (try split) <;> (try split) <;> (try split) <;> simp
@[simp] theorem idStep_exmem : ((idStep d e m w ss s).state).exmem = s.exmem := by unfold idStep; split <;> (try split) <;> (try split) <;> (try split) <;> simp
@[simp] theorem idStep_memwb : ((idStep d e m w ss s).state).memwb = s.memwb := by unfold idStep; split <;> (try split) <;> (try split) <;> (try split) <;> simp
@[simp] theorem idStep_status : ((idStep d e m w ss s).state).status = s.status := by unfold idStep; split <;> (try split) <;> (try split) <;> (try split) <;> simp
@[simp] theorem idStep_mem : ((idStep d e m w ss s).state).mem = s.mem := by unfold idStep; split <;> (try split) <;> (try split) <;> (try split) <;> simp
@[simp] theorem idStep_os : ((idStep d e m w ss s).state).os = s.os := by unfold idStep; split <;> (try split) <;> (try split) <;> (try split) <;> simp
@[simp] theorem idStep_params : ((idStep d e m w ss s).state).params = s.params := by unfold idStep; split <;> (try split) <;> (try split) <;> (try split) <;> simp
@[simp] theorem idStep_sysReplies : ((idStep d e m w ss s).state).sysReplies = s.sysReplies := by unfold idStep; split <;> (try split) <;> (try split) <;> (try split) <;> simp

end idStep

/-! ### The cases of the Writeback step (R470) -/

section cases
variable (w : Record) (s : State)

theorem wbState_refused {r : RefuseReason} (h : w.exc = some (.refuse r)) :
    wbState w s = s.setStatus (.refused r) := by simp [wbState, h]

theorem wbState_faulted {f : ModelFault} (h : w.exc = some (.fault f)) :
    wbState w s = s.setStatus (.faulted f) := by simp [wbState, h]

@[simp] theorem wbState_bubble : wbState .bubble s = s := rfl

theorem wbState_halted (hx : w.exc = none) (hb : w.isBubble = false) (hi : w.isIllegal = true) :
    wbState w s = s.setStatus (.halted w) := by simp [wbState, hx, hb, hi]

theorem wbState_trap (hx : w.exc = none) (hb : w.isBubble = false) (hi : w.isIllegal = false)
    (hs : w.isSyscall = true) : wbState w s = s.trap w := by simp [wbState, hx, hb, hi, hs]

theorem wbState_commit (hx : w.exc = none) (hb : w.isBubble = false) (hi : w.isIllegal = false)
    (hs : w.isSyscall = false) : wbState w s = commit w s := by simp [wbState, hx, hb, hi, hs]

/-- Everything a running Writeback step can do that lets the run go on: nothing, a trap, or a commit. -/
theorem wbState_running (h : (wbState w s).status.isRunning = true) :
    w.exc = none ∧ (w.isBubble = true ∧ wbState w s = s ∨
      w.isBubble = false ∧ w.isIllegal = false ∧
        (w.isSyscall = true ∧ wbState w s = s.trap w ∨ w.isSyscall = false ∧ wbState w s = commit w s)) := by
  unfold wbState at h ⊢
  cases hx : w.exc with
  | some x => cases x <;> simp [hx, Status.isRunning] at h
  | none =>
    cases hb : w.isBubble <;> cases hi : w.isIllegal <;> cases hs : w.isSyscall <;>
      simp_all [Status.isRunning]

end cases

/-! ### Bubbles (R121) -/

@[simp] theorem bubble_isBubble : Record.bubble.isBubble = true := rfl
@[simp] theorem bubble_skipsExecute : Record.bubble.skipsExecute = true := rfl
@[simp] theorem exRecord_bubble (f : Record → Record) : exRecord f .bubble = .bubble := rfl
@[simp] theorem exState_bubble (f : Record → Record) (s : State) : exState f .bubble s = s.clearWflag := rfl
@[simp] theorem memRecord_bubble (s : State) : memRecord .bubble s = .bubble := rfl
@[simp] theorem memState_bubble (s : State) : memState .bubble s = s := rfl

/-! ### Records: what Execute and Memory leave of one -/

section records
variable (m : Record) (s : State)


@[simp] theorem memRecord_op : (memRecord m s).op = m.op := by
  unfold memRecord; split <;> (try split) <;> (try split) <;> (try split) <;> rfl
@[simp] theorem memRecord_ins : (memRecord m s).ins = m.ins := by
  unfold memRecord; split <;> (try split) <;> (try split) <;> (try split) <;> rfl
@[simp] theorem memRecord_insPC : (memRecord m s).insPC = m.insPC := by
  unfold memRecord; split <;> (try split) <;> (try split) <;> (try split) <;> rfl
@[simp] theorem memRecord_vrs : (memRecord m s).vrs = m.vrs := by
  unfold memRecord; split <;> (try split) <;> (try split) <;> (try split) <;> rfl
@[simp] theorem memRecord_vrt : (memRecord m s).vrt = m.vrt := by
  unfold memRecord; split <;> (try split) <;> (try split) <;> (try split) <;> rfl
@[simp] theorem memRecord_vf : (memRecord m s).vf = m.vf := by
  unfold memRecord; split <;> (try split) <;> (try split) <;> (try split) <;> rfl
@[simp] theorem memRecord_vhl : (memRecord m s).vhl = m.vhl := by
  unfold memRecord; split <;> (try split) <;> (try split) <;> (try split) <;> rfl
@[simp] theorem memRecord_dst : (memRecord m s).dst = m.dst := by
  unfold memRecord; split <;> (try split) <;> (try split) <;> (try split) <;> rfl
@[simp] theorem memRecord_mem : (memRecord m s).mem = m.mem := by
  unfold memRecord; split <;> (try split) <;> (try split) <;> (try split) <;> rfl
@[simp] theorem memRecord_isCT : (memRecord m s).isCT = m.isCT := by
  unfold memRecord; split <;> (try split) <;> (try split) <;> (try split) <;> rfl
@[simp] theorem memRecord_bd : (memRecord m s).bd = m.bd := by
  unfold memRecord; split <;> (try split) <;> (try split) <;> (try split) <;> rfl
@[simp] theorem memRecord_isSyscall : (memRecord m s).isSyscall = m.isSyscall := by
  unfold memRecord; split <;> (try split) <;> (try split) <;> (try split) <;> rfl
@[simp] theorem memRecord_isIllegal : (memRecord m s).isIllegal = m.isIllegal := by
  unfold memRecord; split <;> (try split) <;> (try split) <;> (try split) <;> rfl
@[simp] theorem memRecord_resLo : (memRecord m s).resLo = m.resLo := by
  unfold memRecord; split <;> (try split) <;> (try split) <;> (try split) <;> rfl
@[simp] theorem memRecord_resHi : (memRecord m s).resHi = m.resHi := by
  unfold memRecord; split <;> (try split) <;> (try split) <;> (try split) <;> rfl
@[simp] theorem memRecord_addr : (memRecord m s).addr = m.addr := by
  unfold memRecord; split <;> (try split) <;> (try split) <;> (try split) <;> rfl
@[simp] theorem memRecord_btaken : (memRecord m s).btaken = m.btaken := by
  unfold memRecord; split <;> (try split) <;> (try split) <;> (try split) <;> rfl
@[simp] theorem memRecord_btgt : (memRecord m s).btgt = m.btgt := by
  unfold memRecord; split <;> (try split) <;> (try split) <;> (try split) <;> rfl

end records

end Sys2Proof.Machine
end

