-- ==== Sys2Proof/Laws/Exec.lean ====
section
/-! SUPPORT. `exec` and `step` in terms of the stage operations, and what the operation handlers leave of
a record. -/

namespace Sys2Proof.Machine

/-- Every arm of `exec` runs its instruction with the handler the pipeline uses for it. -/
theorem exec_eq_runAlone (i : Instr) (s : State) : exec i s = runAlone i (handlerOf s.params i) s := by
  cases i <;> rfl

theorem exec_ended {s : State} (h : s.status.isRunning = false) (i : Instr) : exec i s = .fault .runEnded := by
  rw [exec_eq_runAlone, runAlone, h]; rfl

theorem exec_running {s : State} (h : s.status.isRunning = true) (i : Instr) :
    exec i s = .next (wbState (flowAccessed i (handlerOf s.params i) s) (flowMemoryState i (handlerOf s.params i) s)) := by
  rw [exec_eq_runAlone, runAlone, h]; rfl

theorem step_ended {s : State} (h : s.status.isRunning = false) : step s = .fault .runEnded := by
  rw [step, h]; rfl

theorem step_running {s : State} (h : s.status.isRunning = true) : step s = .next (cycle s) := by
  rw [step, h]; rfl

theorem step_next {s t : State} (h : step s = .next t) : s.status.isRunning = true ∧ t = cycle s := by
  cases hr : s.status.isRunning with
  | false => rw [step_ended hr] at h; cases h
  | true => rw [step_running hr] at h; cases h; exact ⟨rfl, rfl⟩

/-! ### The operation handlers fill result fields only (R120, R442) -/

/-- The fields of a record that Execute may not change. -/
structure SameTags (r r' : Record) : Prop where
  op : r'.op = r.op
  ins : r'.ins = r.ins
  insPC : r'.insPC = r.insPC
  vrs : r'.vrs = r.vrs
  vrt : r'.vrt = r.vrt
  vf : r'.vf = r.vf
  vhl : r'.vhl = r.vhl
  dst : r'.dst = r.dst
  mem : r'.mem = r.mem
  isCT : r'.isCT = r.isCT
  bd : r'.bd = r.bd
  isSyscall : r'.isSyscall = r.isSyscall
  isIllegal : r'.isIllegal = r.isIllegal

theorem SameTags.refl (r : Record) : SameTags r r := ⟨rfl, rfl, rfl, rfl, rfl, rfl, rfl, rfl, rfl, rfl, rfl, rfl, rfl⟩

theorem operateDiv_tags (mode : DivOverflowMode) (r : Record) : SameTags r (operateDiv mode r) := by
  unfold operateDiv
  split
  · constructor <;> rfl
  · split
    · cases mode <;> constructor <;> rfl
    · constructor <;> rfl

theorem operateDivu_tags (r : Record) : SameTags r (operateDivu r) := by
  unfold operateDivu
  split <;> constructor <;> rfl

theorem handlerOf_tags (p : Params) (i : Instr) (r : Record) : SameTags r ((handlerOf p i).operate r) := by
  cases i
  case div => exact operateDiv_tags _ r
  case divu => exact operateDivu_tags r
  case brk => show SameTags r ((handleBrk p).operate r); unfold handleBrk; split <;> exact .refl r
  all_goals constructor <;> rfl

theorem opHandler_tags (p : Params) (op : Op) (r : Record) : SameTags r ((opHandler p op).operate r) := by
  cases op with
  | instr i => exact handlerOf_tags p i r
  | illegal => exact .refl r
  | fault => exact .refl r
  | bubble => exact .refl r

theorem exStepRecord_tags (p : Params) (e : Record) : SameTags e (exStepRecord p e) := by
  unfold exStepRecord exRecord
  split
  · exact .refl e
  · exact opHandler_tags p e.op e

@[simp] theorem exStepRecord_op (p : Params) (e : Record) : (exStepRecord p e).op = e.op := (exStepRecord_tags p e).op
@[simp] theorem exStepRecord_ins (p : Params) (e : Record) : (exStepRecord p e).ins = e.ins := (exStepRecord_tags p e).ins
@[simp] theorem exStepRecord_insPC (p : Params) (e : Record) : (exStepRecord p e).insPC = e.insPC := (exStepRecord_tags p e).insPC
@[simp] theorem exStepRecord_vrs (p : Params) (e : Record) : (exStepRecord p e).vrs = e.vrs := (exStepRecord_tags p e).vrs
@[simp] theorem exStepRecord_vrt (p : Params) (e : Record) : (exStepRecord p e).vrt = e.vrt := (exStepRecord_tags p e).vrt
@[simp] theorem exStepRecord_vf (p : Params) (e : Record) : (exStepRecord p e).vf = e.vf := (exStepRecord_tags p e).vf
@[simp] theorem exStepRecord_vhl (p : Params) (e : Record) : (exStepRecord p e).vhl = e.vhl := (exStepRecord_tags p e).vhl
@[simp] theorem exStepRecord_dst (p : Params) (e : Record) : (exStepRecord p e).dst = e.dst := (exStepRecord_tags p e).dst
@[simp] theorem exStepRecord_mem (p : Params) (e : Record) : (exStepRecord p e).mem = e.mem := (exStepRecord_tags p e).mem
@[simp] theorem exStepRecord_isCT (p : Params) (e : Record) : (exStepRecord p e).isCT = e.isCT := (exStepRecord_tags p e).isCT
@[simp] theorem exStepRecord_bd (p : Params) (e : Record) : (exStepRecord p e).bd = e.bd := (exStepRecord_tags p e).bd
@[simp] theorem exStepRecord_isSyscall (p : Params) (e : Record) : (exStepRecord p e).isSyscall = e.isSyscall := (exStepRecord_tags p e).isSyscall
@[simp] theorem exStepRecord_isIllegal (p : Params) (e : Record) : (exStepRecord p e).isIllegal = e.isIllegal := (exStepRecord_tags p e).isIllegal

/-! ### The cycle -/

theorem cycle_ends {s : State} (h : (wbState s.memwb s).status.isRunning = false) : cycle s = wbState s.memwb s := by
  simp [cycle, h]

theorem cycle_goes_on {s : State} (h : (wbState s.memwb s).status.isRunning = true) :
    cycle s = ((afterFetch s).loadLatches (idOut s).record (exStepRecord s.params s.idex) (memOut s)).budgetCheck := by
  simp [cycle, h]

section afterMemory
variable (s : State)

@[simp] theorem afterMemory_gpr : (afterMemory s).gpr = (wbState s.memwb s).gpr := by simp [afterMemory, exStepState]
@[simp] theorem afterMemory_fpr : (afterMemory s).fpr = (wbState s.memwb s).fpr := by simp [afterMemory, exStepState]
@[simp] theorem afterMemory_hi : (afterMemory s).hi = (wbState s.memwb s).hi := by simp [afterMemory, exStepState]
@[simp] theorem afterMemory_lo : (afterMemory s).lo = (wbState s.memwb s).lo := by simp [afterMemory, exStepState]
@[simp] theorem afterMemory_syscallStall : (afterMemory s).syscallStall = (wbState s.memwb s).syscallStall := by simp [afterMemory, exStepState]
@[simp] theorem afterMemory_nfetched : (afterMemory s).nfetched = (wbState s.memwb s).nfetched := by simp [afterMemory, exStepState]
@[simp] theorem afterMemory_status : (afterMemory s).status = (wbState s.memwb s).status := by simp [afterMemory, exStepState]
@[simp] theorem afterMemory_os : (afterMemory s).os = (wbState s.memwb s).os := by simp [afterMemory, exStepState]
@[simp] theorem afterMemory_sysReplies : (afterMemory s).sysReplies = (wbState s.memwb s).sysReplies := by simp [afterMemory, exStepState]
@[simp] theorem afterMemory_decoderStall : (afterMemory s).decoderStall = s.decoderStall := by simp [afterMemory, exStepState]
@[simp] theorem afterMemory_branchStall : (afterMemory s).branchStall = s.branchStall := by simp [afterMemory, exStepState]
@[simp] theorem afterMemory_bdPending : (afterMemory s).bdPending = s.bdPending := by simp [afterMemory, exStepState]
@[simp] theorem afterMemory_ifid : (afterMemory s).ifid = s.ifid := by simp [afterMemory, exStepState]
@[simp] theorem afterMemory_idex : (afterMemory s).idex = s.idex := by simp [afterMemory, exStepState]
@[simp] theorem afterMemory_exmem : (afterMemory s).exmem = s.exmem := by simp [afterMemory, exStepState]
@[simp] theorem afterMemory_memwb : (afterMemory s).memwb = s.memwb := by simp [afterMemory, exStepState]
@[simp] theorem afterMemory_params : (afterMemory s).params = s.params := by simp [afterMemory, exStepState]
@[simp] theorem afterMemory_draws : (afterMemory s).draws = s.draws := by simp [afterMemory, exStepState]

end afterMemory

section cycle
variable (s : State)

theorem cycle_gpr : (cycle s).gpr = (wbState s.memwb s).gpr := by
  unfold cycle; dsimp only; split <;> simp [afterFetch, idOut]
theorem cycle_fpr : (cycle s).fpr = (wbState s.memwb s).fpr := by
  unfold cycle; dsimp only; split <;> simp [afterFetch, idOut]
theorem cycle_hi : (cycle s).hi = (wbState s.memwb s).hi := by
  unfold cycle; dsimp only; split <;> simp [afterFetch, idOut]
theorem cycle_lo : (cycle s).lo = (wbState s.memwb s).lo := by
  unfold cycle; dsimp only; split <;> simp [afterFetch, idOut]
theorem cycle_os : (cycle s).os = (wbState s.memwb s).os := by
  unfold cycle; dsimp only; split <;> simp [afterFetch, idOut]
theorem cycle_sysReplies : (cycle s).sysReplies = (wbState s.memwb s).sysReplies := by
  unfold cycle; dsimp only; split <;> simp [afterFetch, idOut]
theorem cycle_params : (cycle s).params = s.params := by
  unfold cycle; dsimp only; split <;> simp [afterFetch, idOut]

theorem cycle_mem : (cycle s).mem =
    if (wbState s.memwb s).status.isRunning then (afterMemory s).mem else (wbState s.memwb s).mem := by
  unfold cycle; dsimp only; split <;> simp [afterFetch, idOut]

end cycle

end Sys2Proof.Machine
end

