-- ==== Sys2Proof/Laws/Handlers.lean ====
section
/-! SUPPORT. The handlers as the tables of Safety.lean describe their instructions, and everything `exec`
can do, said once: it refuses, halts, traps, faults, or commits. -/

namespace Sys2Proof.Machine

/-! ### Handlers and the tables -/

theorem handlerOf_isCT (p : Params) (i : Instr) : (handlerOf p i).isCT = i.isControlTransfer := by
  cases i
  case brk => simp only [handlerOf, handleBrk]; cases p.breakMode <;> rfl
  all_goals rfl

theorem handlerOf_isSyscall (p : Params) (i : Instr) : (handlerOf p i).isSyscall = i.isTrap p.breakMode := by
  cases i
  case brk => simp only [handlerOf, handleBrk]; cases p.breakMode <;> rfl
  all_goals rfl

theorem handlerOf_isIllegal (p : Params) (i : Instr) :
    (handlerOf p i).isIllegal = true ↔ i = .brk ∧ p.breakMode = .illegal := by
  cases i
  case brk => simp only [handlerOf, handleBrk]; cases p.breakMode <;> simp [trapHandler, illegalHandler]
  all_goals exact ⟨fun h => Bool.noConfusion h, fun h => Instr.noConfusion h.1⟩

theorem handlerOf_mem (p : Params) (i : Instr) : (handlerOf p i).mem = i.memOperand.map (·.1) := by
  cases i
  case brk => simp only [handlerOf, handleBrk]; cases p.breakMode <;> rfl
  all_goals rfl

theorem handlerOf_isStore (p : Params) (i : Instr) : (handlerOf p i).isStore = i.stores := by
  unfold Handler.isStore Instr.stores
  rw [handlerOf_mem]
  cases i.memOperand <;> rfl

/-- The one destination of an instruction. -/
def instrDst (i : Instr) : Dst :=
  match i.gprDest, i.fprDest, i.hiloDest with
  | some r, _, _ => .gpr r
  | none, some r, _ => .fpr r
  | none, none, (false, false) => .none
  | none, none, (a, b) => .hilo a b

theorem handlerOf_dst (p : Params) (i : Instr) : (handlerOf p i).dst = instrDst i := by
  cases i
  case brk => simp only [handlerOf, handleBrk]; cases p.breakMode <;> rfl
  all_goals rfl

/-- An operation handler raises nothing but the division overflow (R562, R801). -/
theorem handlerOf_exc (p : Params) (i : Instr) (r : Record) :
    ((handlerOf p i).operate r).exc = r.exc ∨
      ((handlerOf p i).operate r).exc = some (.fault (.divOverflow r.insPC)) := by
  cases i
  case div =>
    show (operateDiv p.divOverflow r).exc = r.exc ∨ _
    unfold operateDiv
    split
    · exact .inl rfl
    · split
      · next h =>
        cases hp : p.divOverflow
        · right; simp [handlerOf, handleDiv, hiloRegReg, operateDiv, *, Record.raise]
        · exact .inl rfl
      · exact .inl rfl
  case divu =>
    show (operateDivu r).exc = r.exc ∨ _
    unfold operateDivu
    split <;> exact .inl rfl
  case brk => simp only [handlerOf, handleBrk]; cases p.breakMode <;> exact .inl rfl
  all_goals exact .inl rfl

/-- The effective address a memory instruction leaves in its record (R650). -/
theorem handlerOf_addr {p : Params} {i : Instr} {k : MemKind} {rs : RegIx} {offset : Imm16}
    (h : i.memOperand = some (k, rs, offset)) (r : Record) :
    ((handlerOf p i).operate r).addr = effectiveAddress r.vrs offset ∧ (handlerOf p i).rs = rs := by
  cases i <;> simp only [Instr.memOperand, Option.some.injEq, Prod.mk.injEq, reduceCtorEq] at h
  all_goals obtain ⟨_, rfl, rfl⟩ := h; exact ⟨rfl, rfl⟩

/-! ### Everything `exec` can do -/

/-- With nothing in flight no floating-point read is in the hazard window (R432). -/
@[simp] theorem drawsFpr_alone (h : Handler) (s : State) : drawsFpr h .bubble .bubble s = false := by
  unfold drawsFpr
  split
  · rfl
  · simp [fprWindow, Record.isMtc1To, Record.bubble]

/-- The record Decode builds when the instruction may stand where it stands. -/
theorem flowIssued_ok {i : Instr} {h : Handler} {s : State} (hd : s.bdPending = false ∨ (h.isCT || h.isSyscall) = false) :
    flowIssued i h s = makeRecord (.instr i) h s.ifid .bubble .bubble s := by
  have : (s.bdPending && ((h.isCT || h.isSyscall))) = false := by
    rcases hd with h1 | h1 <;> simp [h1]
  simp only [flowIssued, issueRecord, makeRecord] at *
  simp [this]

/-- Decode's effect when the record is no trap (R428, R429). -/
theorem flowIssueState_eq {i : Instr} {h : Handler} {s : State} (hy : (flowIssued i h s).isSyscall = false) :
    flowIssueState i h s = { s with bdPending := (flowIssued i h s).isCT, branchStall := false } := by
  rw [flowIssueState, trapFetch, hy]
  have hy' : (issueRecord (.instr i) h s.ifid .bubble .bubble s).isSyscall = false := hy
  simp [issueState, State.countDraw, State.afterIssue, hy', flowIssued]

/-- A record that Execute skips and that accesses no memory goes to Writeback as it is (R440, R451). -/
theorem runAlone_skips {i : Instr} {h : Handler} {s : State} (hs : s.status = .running)
    (hk : (flowIssued i h s).skipsExecute = true) (hm : (flowIssued i h s).mem = none) :
    runAlone i h s = .next (wbState (flowIssued i h s) (flowIssueState i h s).clearWflag) := by
  simp [runAlone, hs, Status.isRunning, flowAccessed, flowMemoryState, flowExecuted, flowExecuteState, exRecord,
    exState, hk, memRecord, memState, hm, State.clearWflag]

/-- A control transfer or a trap in a delay slot is refused, without effect (R428, R806). -/
theorem exec_refuses {i : Instr} {s : State} (hs : s.status = .running) (hb : s.bdPending = true)
    (hc : (i.isControlTransfer || i.isTrap s.params.breakMode) = true) :
    exec i s = .next { s.retired with status := .refused .delaySlotControl } := by
  have hc' : ((handlerOf s.params i).isCT || (handlerOf s.params i).isSyscall) = true := by
    rw [handlerOf_isCT, handlerOf_isSyscall]; exact hc
  have he : flowIssued i (handlerOf s.params i) s =
      (makeRecord (.instr i) (handlerOf s.params i) s.ifid .bubble .bubble s).refuse .delaySlotControl := by
    simp [flowIssued, issueRecord, makeRecord, hb, hc']
  rw [exec_eq_runAlone, runAlone_skips hs (by simp [he, Record.refuse, Record.skipsExecute])
    (by simp [he, Record.refuse]), flowIssueState_eq (by simp [he, Record.refuse]), he]
  rfl

/-- `break` under BREAK_MODE = illegal halts the core (R701, R808). -/
theorem exec_halts {s : State} (hs : s.status = .running) (hm : s.params.breakMode = .illegal) :
    exec .brk s = .next { s.retired with
      status := .halted (makeRecord (.instr .brk) illegalHandler s.ifid .bubble .bubble s) } := by
  have hh : handlerOf s.params .brk = illegalHandler := by simp [handlerOf, handleBrk, hm]
  have he := flowIssued_ok (i := .brk) (h := illegalHandler) (s := s) (.inr rfl)
  rw [exec_eq_runAlone, hh, runAlone_skips hs (by rw [he]; rfl) (by rw [he]; rfl),
    flowIssueState_eq (by rw [he]; rfl), he]
  rfl

/-- The record of an instruction after its operation handler. -/
def operated (i : Instr) (s : State) : Record :=
  (handlerOf s.params i).operate (makeRecord (.instr i) (handlerOf s.params i) s.ifid .bubble .bubble s)

/-- The state behind an instruction that has had no effect yet. -/
def afterDecode (i : Instr) (s : State) : State := { s.retired with bdPending := i.isControlTransfer }

/-- An instruction that neither traps, nor is illegal, nor is refused: it faults, or it commits. -/
theorem exec_plain {i : Instr} {s : State} (hs : s.status = .running)
    (hd : s.bdPending = false ∨ i.isControlTransfer = false) (ht : i.isTrap s.params.breakMode = false)
    (hi : (handlerOf s.params i).isIllegal = false) :
    exec i s = .next
      (match (operated i s).exc with
      | some _ => (afterDecode i s).setStatus (.faulted (.divOverflow s.ifid.insPC))
      | none =>
        match i.memOperand with
        | none => commit (operated i s) (exBranch (operated i s) (exCommit (operated i s) (afterDecode i s))).clearWflag
        | some (k, _, _) =>
          match accessFault s.params k (operated i s).addr with
          | some f => (afterDecode i s).setStatus (.faulted f)
          | none => commit (memRecord (operated i s) s) (memAccess k (operated i s) (afterDecode i s))) := by
  have hct := handlerOf_isCT s.params i
  have hsy := (handlerOf_isSyscall s.params i).trans ht
  have he : flowIssued i (handlerOf s.params i) s =
      makeRecord (.instr i) (handlerOf s.params i) s.ifid .bubble .bubble s :=
    flowIssued_ok (hd.imp id fun h => by rw [hct, hsy, h]; rfl)
  have hb : (makeRecord (.instr i) (handlerOf s.params i) s.ifid .bubble .bubble s).isBubble = false := by
    simp [Record.isBubble, makeRecord, hi]
  have tags := handlerOf_tags s.params i (makeRecord (.instr i) (handlerOf s.params i) s.ifid .bubble .bubble s)
  have hx := handlerOf_exc s.params i (makeRecord (.instr i) (handlerOf s.params i) s.ifid .bubble .bubble s)
  have hk : (makeRecord (.instr i) (handlerOf s.params i) s.ifid .bubble .bubble s).skipsExecute = false := by
    simp [Record.skipsExecute, hb]; simp [makeRecord, hi, hsy]
  have hD : flowIssueState i (handlerOf s.params i) s =
      { s with bdPending := i.isControlTransfer, branchStall := false } := by
    rw [flowIssueState_eq (by rw [he]; exact hsy), he]; simp [makeRecord, hct]
  have hO : flowExecuted i (handlerOf s.params i) s = operated i s := by
    rw [flowExecuted, exRecord, he, hk]; rfl
  have hS : flowExecuteState i (handlerOf s.params i) s =
      if (operated i s).exc.isSome then afterDecode i s
      else (exBranch (operated i s) (exCommit (operated i s) (afterDecode i s))).clearWflag := by
    rw [flowExecuteState, exState, he, hk, hD]
    simp only [Bool.false_or]
    show State.clearWflag (if (operated i s).exc.isSome = true then _ else _) = _
    split <;> rfl
  have oDst : (operated i s).op = .instr i := by rw [operated, tags.op]; simp [makeRecord, hi]
  have oIll : (operated i s).isIllegal = false := by rw [operated, tags.isIllegal]; exact hi
  have oSys : (operated i s).isSyscall = false := by rw [operated, tags.isSyscall]; exact hsy
  have oMem : (operated i s).mem = i.memOperand.map (·.1) := by rw [operated, tags.mem]; exact handlerOf_mem s.params i
  have oCT : (operated i s).isCT = i.isControlTransfer := by rw [operated, tags.isCT]; exact hct
  have oDs : (operated i s).dst = instrDst i := by rw [operated, tags.dst]; exact handlerOf_dst s.params i
  rw [exec_running (by rw [hs]; rfl)]
  congr 1
  rw [flowAccessed, flowMemoryState, hO, hS]
  cases hex : (operated i s).exc with
  | some x =>
    have hx' : x = .fault (.divOverflow s.ifid.insPC) := by
      rcases hx with h | h
      · rw [operated, h] at hex; cases hex
      · rw [operated, h] at hex; cases hex; rfl
    subst hx'
    have hm : memRecord (operated i s) (afterDecode i s) = operated i s := by
      unfold memRecord; split <;> simp [hex]
    have hm' : memState (operated i s) (afterDecode i s) = afterDecode i s := by
      unfold memState; split <;> simp [hex]
    simp only [Option.isSome_some, if_true, hm, hm']
    exact wbState_faulted _ _ hex
  | none =>
    simp only [Option.isSome_none, Bool.false_eq_true, if_false]
    have nb : (operated i s).isBubble = false := by simp [Record.isBubble, oDst]
    cases hmo : i.memOperand with
    | none =>
      rw [hmo] at oMem
      have : (operated i s).mem = none := oMem
      simp only [memRecord, memState, this]
      exact wbState_commit _ _ hex nb oIll oSys
    | some kk =>
      obtain ⟨k, rs, off⟩ := kk
      rw [hmo] at oMem
      have hm : (operated i s).mem = some k := oMem
      have hnct : i.isControlTransfer = false := by
        cases i <;> simp [Instr.memOperand] at hmo <;> rfl
      have hB : (exBranch (operated i s) (exCommit (operated i s) (afterDecode i s))).clearWflag = afterDecode i s := by
        rw [exBranch, oCT, hnct]
        simp only [Bool.false_eq_true, if_false]
        unfold exCommit
        rw [oDs]
        have hl : (operated i s).isLoad = k.isLoad := by simp [Record.isLoad, hm]
        cases i <;> simp [Instr.memOperand] at hmo <;> obtain ⟨rfl, _⟩ := hmo <;>
          simp [instrDst, Instr.gprDest, Instr.fprDest, Instr.hiloDest, hl, MemKind.isLoad] <;> rfl
      rw [hB]
      have hp : (afterDecode i s).params = s.params := rfl
      cases hf : accessFault s.params k (operated i s).addr with
      | some f =>
        simp only [memRecord, memState, hm, hex, hp, hf]
        simp [wbState, Record.raise]
      | none =>
        simp only [memRecord, memState, hm, hex, hp, hf]
        simp only [Option.isSome_none, Bool.or_self, Bool.false_eq_true, if_false]
        have hmem : (afterDecode i s).mem = s.mem := rfl
        rw [hmem]
        split
        · exact wbState_commit _ _ rfl nb oIll oSys
        · exact wbState_commit _ _ hex nb oIll oSys

/-! ### Memory instructions -/

theorem toNat_extract_low (a : Word) (n : Nat) : (a.extractLsb' 0 n).toNat = a.toNat % 2 ^ n := by simp

/-- The alignment check in numbers (R212). -/
theorem misalignedAt_iff (k : MemKind) (a : Word) : k.misalignedAt a = true ↔ a.toNat % k.alignment ≠ 0 := by
  have h1 : a.extractLsb' 0 1 ≠ 0#1 ↔ a.toNat % 2 ≠ 0 := by
    rw [Ne, ← BitVec.toNat_inj, toNat_extract_low]; simp
  have h2 : a.extractLsb' 0 2 ≠ 0#2 ↔ a.toNat % 4 ≠ 0 := by
    rw [Ne, ← BitVec.toNat_inj, toNat_extract_low]; simp
  cases k <;> simp only [MemKind.misalignedAt, MemKind.alignment, decide_eq_true_eq, h1, h2] <;>
    simp [Nat.mod_one]

/-- An access that passes both checks (R651). -/
theorem accessFault_none {k : MemKind} {a : Word} {p : Params} (h1 : a.toNat % k.alignment = 0)
    (h2 : mapped p a = true) : accessFault p k a = none := by
  have : k.misalignedAt a = false := by
    cases h : k.misalignedAt a with
    | false => rfl
    | true => exact absurd h1 ((misalignedAt_iff k a).1 h)
  simp [accessFault, this, h2]

/-- A memory instruction is no control transfer and no trap. -/
theorem memOperand_plain {i : Instr} {k : MemKind} {rs : RegIx} {offset : Imm16}
    (h : i.memOperand = some (k, rs, offset)) (mode : BreakMode) :
    i.isTrap mode = false ∧ i.isControlTransfer = false ∧ i ≠ .brk := by
  cases i <;> simp [Instr.memOperand] at h <;> exact ⟨rfl, rfl, by simp⟩

theorem handlerOf_legal {i : Instr} (p : Params) (h : i ≠ .brk) : (handlerOf p i).isIllegal = false := by
  cases hh : (handlerOf p i).isIllegal with
  | false => rfl
  | true => exact absurd ((handlerOf_isIllegal p i).1 hh).1 h

/-- A memory instruction faults at its effective address, or accesses it and commits (R650 to R653). -/
theorem exec_mem {i : Instr} {k : MemKind} {rs : RegIx} {offset : Imm16} {s : State}
    (h : i.memOperand = some (k, rs, offset)) (hs : s.status = .running) :
    exec i s = .next
      (match accessFault s.params k (effectiveAddress (s.byp.read rs) offset) with
      | some f => s.retired.setStatus (.faulted f)
      | none => commit (memRecord (operated i s) s) (memAccess k (operated i s) s.retired)) := by
  obtain ⟨h1, h2, h3⟩ := memOperand_plain h s.params.breakMode
  rw [exec_plain hs (.inr h2) h1 (handlerOf_legal _ h3)]
  have hx : (operated i s).exc = none := by
    cases i <;> simp [Instr.memOperand] at h <;> rfl
  have ha : (operated i s).addr = effectiveAddress (s.byp.read rs) offset := by
    have := handlerOf_addr (p := s.params) h (makeRecord (.instr i) (handlerOf s.params i) s.ifid .bubble .bubble s)
    rw [operated, this.1, ← this.2]; rfl
  have hd : afterDecode i s = s.retired := by simp [afterDecode, h2, State.retired]
  simp only [hx, h, ha, hd]

/-- With the flags clear a load reaches the bypass copy (R456). -/
theorem retired_deferredCommit (s : State) (i : RegIx) (v : Word) :
    s.retired.deferredCommit i v = { s.retired with byp := s.byp.write i v } := by
  unfold State.deferredCommit
  split
  · rfl
  · next h =>
    by_cases h0 : i = 0#5
    · subst h0; rfl
    · exact absurd ⟨h0, by simp [State.retired, clearFlags]⟩ h

end Sys2Proof.Machine
end

