-- ==== Sys2Proof/Laws/Memory.lean ====
section
/-! SUPPORT. What the memory operations can do: every one keeps the canonical form, a read after a write
gives the byte written, a write leaves every other byte alone, and equal reads make equal memories. -/

namespace Sys2Proof

/-! ### The canonical form -/

theorem cellsWf_mono {lo lo' : Nat} {l : List Host.Cell} (h : cellsWf lo l = true) (hl : lo' ≤ lo) :
    cellsWf lo' l = true := by
  cases l with
  | nil => rfl
  | cons c rest =>
    simp only [cellsWf, Bool.and_eq_true, decide_eq_true_eq] at h ⊢
    exact ⟨⟨⟨Nat.le_trans hl h.1.1.1, h.1.1.2⟩, h.1.2⟩, h.2⟩

theorem cellsWf_cons {lo k : Nat} {b : Byte} {rest : List Host.Cell} :
    cellsWf lo ((k, b) :: rest) = true ↔
      lo ≤ k ∧ k < 2 ^ 32 ∧ b ≠ Config.unlistedByte ∧ cellsWf (k + 1) rest = true := by
  simp [cellsWf, and_assoc]

theorem cellsWf_consCell {lo a : Nat} {b : Byte} {rest : List Host.Cell} (h : cellsWf (a + 1) rest = true)
    (hlo : lo ≤ a) (ha : a < 2 ^ 32) : cellsWf lo (consCell a b rest) = true := by
  unfold consCell
  split
  · exact cellsWf_mono h (by omega)
  · next hb => exact cellsWf_cons.2 ⟨hlo, ha, hb, h⟩

theorem cellsWf_writeCell {lo a : Nat} {b : Byte} {l : List Host.Cell} (h : cellsWf lo l = true)
    (hlo : lo ≤ a) (ha : a < 2 ^ 32) : cellsWf lo (writeCell l a b) = true := by
  induction l generalizing lo with
  | nil => exact cellsWf_consCell rfl hlo ha
  | cons c rest ih =>
    obtain ⟨k, c⟩ := c
    obtain ⟨h1, h2, h3, h4⟩ := cellsWf_cons.1 h
    unfold writeCell
    split
    · next hk => exact cellsWf_consCell (cellsWf_cons.2 ⟨hk, h2, h3, h4⟩) hlo ha
    · split
      · next hk => subst hk; exact cellsWf_consCell h4 hlo ha
      · next h5 h6 => exact cellsWf_cons.2 ⟨h1, h2, h3, ih h4 (by omega)⟩

theorem Memory.wf_write {m : Memory} (h : m.wf = true) (a : Word) (b : Byte) : (m.write a b).wf = true :=
  cellsWf_writeCell h (Nat.zero_le _) a.isLt

theorem Memory.wf_write16 {m : Memory} (h : m.wf = true) (a : Word) (v : BitVec 16) :
    (m.write16 a v).wf = true := Memory.wf_write (Memory.wf_write h _ _) _ _

theorem Memory.wf_write32 {m : Memory} (h : m.wf = true) (a v : Word) : (m.write32 a v).wf = true :=
  Memory.wf_write (Memory.wf_write (Memory.wf_write (Memory.wf_write h _ _) _ _) _ _) _ _

theorem Memory.wf_writeDouble {m : Memory} (h : m.wf = true) (a : Word) (w : BitVec 64) :
    (m.writeDouble a w).wf = true := Memory.wf_write32 (Memory.wf_write32 h _ _) _ _

theorem Memory.wf_writeAll {m : Memory} (h : m.wf = true) (ws : List (Word × Byte)) :
    (m.writeAll ws).wf = true := by
  unfold Memory.writeAll
  induction ws generalizing m with
  | nil => exact h
  | cons w rest ih => exact ih (Memory.wf_write h w.1 w.2)

/-! ### Reading -/

theorem readCell_below {lo k : Nat} {l : List Host.Cell} (h : cellsWf lo l = true) (hk : k < lo) :
    readCell l k = Config.unlistedByte := by
  induction l generalizing lo with
  | nil => rfl
  | cons c rest ih =>
    obtain ⟨a, c⟩ := c
    obtain ⟨h1, _, _, h4⟩ := cellsWf_cons.1 h
    simp only [readCell]
    rw [if_neg (by omega)]
    exact ih h4 (by omega)

theorem readCell_consCell {a k : Nat} {b : Byte} {rest : List Host.Cell} (h : cellsWf (a + 1) rest = true) :
    readCell (consCell a b rest) k = if a = k then b else readCell rest k := by
  unfold consCell
  split
  · next hb =>
    split
    · next hk => subst hk; rw [hb]; exact readCell_below h (Nat.lt_succ_self _)
    · rfl
  · rfl

theorem readCell_writeCell {lo a k : Nat} {b : Byte} {l : List Host.Cell} (h : cellsWf lo l = true) :
    readCell (writeCell l a b) k = if a = k then b else readCell l k := by
  induction l generalizing lo with
  | nil => exact readCell_consCell rfl
  | cons c rest ih =>
    obtain ⟨n, c⟩ := c
    obtain ⟨h1, h2, h3, h4⟩ := cellsWf_cons.1 h
    unfold writeCell
    split
    · next hk => exact readCell_consCell (cellsWf_cons.2 ⟨hk, h2, h3, h4⟩)
    · split
      · next hk =>
        subst hk
        rw [readCell_consCell h4]
        simp only [readCell]
        split <;> rfl
      · next h5 h6 =>
        simp only [readCell, ih h4]
        split
        · next h7 => rw [if_neg (by omega)]
        · rfl

/-- One byte stored: that byte reads as stored, every other as before. -/
theorem Memory.read_write {m : Memory} (h : m.wf = true) (a x : Word) (b : Byte) :
    (m.write a b).read x = if a = x then b else m.read x := by
  unfold Memory.read Memory.write
  rw [readCell_writeCell h]
  by_cases hx : a = x
  · subst hx; simp
  · have : a.toNat ≠ x.toNat := fun e => hx (BitVec.eq_of_toNat_eq e)
    simp [hx, this]

/-- An address is `n` above another where their difference is `n`. -/
theorem add_eq_iff_sub {a b : Word} {n : Nat} (hn : n < 2 ^ 32) :
    a + BitVec.ofNat 32 n = b ↔ (b - a).toNat = n := by
  constructor
  · intro e
    subst e
    rw [BitVec.add_comm, BitVec.add_sub_cancel, BitVec.toNat_ofNat, Nat.mod_eq_of_lt hn]
  · intro e
    have : b - a = BitVec.ofNat 32 n := by
      apply BitVec.eq_of_toNat_eq; rw [e, BitVec.toNat_ofNat, Nat.mod_eq_of_lt hn]
    rw [← this, BitVec.add_comm, BitVec.sub_add_cancel]

/-- A word stored: its four bytes, most significant first, and every other byte as before (R205, R208). -/
theorem Memory.read_write32 {m : Memory} (h : m.wf = true) (a v b : Word) :
    (m.write32 a v).read b =
      if (b - a).toNat < 4 then v.extractLsb' (24 - 8 * (b - a).toNat) 8 else m.read b := by
  unfold Memory.write32
  rw [Memory.read_write (Memory.wf_write (Memory.wf_write (Memory.wf_write h _ _) _ _) _ _),
    Memory.read_write (Memory.wf_write (Memory.wf_write h _ _) _ _),
    Memory.read_write (Memory.wf_write h _ _), Memory.read_write h]
  have k0 : a = b ↔ (b - a).toNat = 0 := by
    have := add_eq_iff_sub (a := a) (b := b) (n := 0) (by decide)
    simpa using this
  have k1 : a + 1#32 = b ↔ (b - a).toNat = 1 := add_eq_iff_sub (by decide)
  have k2 : a + 2#32 = b ↔ (b - a).toNat = 2 := add_eq_iff_sub (by decide)
  have k3 : a + 3#32 = b ↔ (b - a).toNat = 3 := add_eq_iff_sub (by decide)
  simp only [k0, k1, k2, k3]
  generalize (b - a).toNat = n
  by_cases h4 : n < 4
  · have : n = 0 ∨ n = 1 ∨ n = 2 ∨ n = 3 := by omega
    rcases this with rfl | rfl | rfl | rfl <;> simp
  · rw [if_neg (by omega), if_neg (by omega), if_neg (by omega), if_neg (by omega), if_neg h4]

/-- Memories in canonical form that read the same everywhere are equal data. -/
theorem cells_ext {lo : Nat} {l l' : List Host.Cell} (h : cellsWf lo l = true) (h' : cellsWf lo l' = true)
    (e : ∀ k, k < 2 ^ 32 → readCell l k = readCell l' k) : l = l' := by
  induction l generalizing lo l' with
  | nil =>
    cases l' with
    | nil => rfl
    | cons c' r' =>
      obtain ⟨k', b'⟩ := c'
      obtain ⟨_, h2, h3, _⟩ := cellsWf_cons.1 h'
      exact absurd (e k' h2).symm (by simpa [readCell] using h3)
  | cons c r ih =>
    obtain ⟨k, b⟩ := c
    obtain ⟨h1, h2, h3, h4⟩ := cellsWf_cons.1 h
    cases l' with
    | nil => exact absurd (e k h2) (by simpa [readCell] using h3)
    | cons c' r' =>
      obtain ⟨k', b'⟩ := c'
      obtain ⟨h1', h2', h3', h4'⟩ := cellsWf_cons.1 h'
      have hk : k = k' := by
        rcases Nat.lt_trichotomy k k' with hlt | heq | hgt
        · have := e k h2
          rw [readCell_below (cellsWf_cons.2 ⟨Nat.le_refl _, h2', h3', h4'⟩) hlt] at this
          simp [readCell] at this; exact absurd this h3
        · exact heq
        · have := e k' h2'
          rw [readCell_below (cellsWf_cons.2 ⟨Nat.le_refl _, h2, h3, h4⟩) hgt] at this
          simp [readCell] at this; exact absurd this.symm h3'
      subst hk
      have hb : b = b' := by simpa [readCell] using e k h2
      subst hb
      have : r = r' := ih h4 h4' fun n hn => by
        by_cases hnk : k = n
        · subst hnk
          rw [readCell_below h4 (Nat.lt_succ_self _), readCell_below h4' (Nat.lt_succ_self _)]
        · simpa [readCell, hnk] using e n hn
      rw [this]

theorem Memory.ext_of_read {m m' : Memory} (h : m.wf = true) (h' : m'.wf = true)
    (e : ∀ a : Word, m.read a = m'.read a) : m = m' := by
  obtain ⟨l⟩ := m
  obtain ⟨l'⟩ := m'
  have : l = l' := cells_ext h h' fun k hk => by
    have h1 : (BitVec.ofNat 32 k).toNat = k := by rw [BitVec.toNat_ofNat, Nat.mod_eq_of_lt hk]
    have h2 := e (BitVec.ofNat 32 k)
    unfold Memory.read at h2
    rw [h1] at h2
    exact h2
  rw [this]

end Sys2Proof
end

