-- ==== Sys2Proof/Laws/Pipeline.lean ====
section
/-! SUPPORT. What one cycle can do, said once: the cases of the Decode step and of the fetch step, every
field of the state after a cycle that goes on, and that every operation keeps memory in its canonical form. -/

namespace Sys2Proof.Machine

/-! ### Memory stays in its canonical form -/
theorem storeMem_wf {m : Memory} (h : m.wf = true) (k : MemKind) (a v f : Word) :
    (storeMem k m a v f).wf = true := by
  cases k <;> simp only [storeMem, storeSb, storeSh, storeSw, storeSwc1, storeSwl, storeSwr] <;>
    first | exact h | exact Memory.wf_write h _ _ | exact Memory.wf_write16 h _ _ | exact Memory.wf_write32 h _ _

theorem memState_wf {m : Record} {s : State} (h : s.mem.wf = true) : (memState m s).mem.wf = true := by
  unfold memState
  split
  · exact h
  · split
    · exact h
    · unfold memAccess
      split
      · split <;> simp [h]
      · exact storeMem_wf h _ _ _ _

theorem wbState_wf {w : Record} {s : State} (h : s.mem.wf = true) : (wbState w s).mem.wf = true := by
  unfold wbState
  split <;> (try split) <;> (try split) <;> (try split)
  · exact h
  · exact h
  · exact h
  · exact h
  · unfold State.trap State.trapWith
    dsimp only
    split <;> simp [Memory.wf_writeAll, h]
  · simp [h]

theorem afterMemory_wf {s : State} (h : s.mem.wf = true) : (afterMemory s).mem.wf = true := by
  unfold afterMemory
  apply memState_wf
  simp [exStepState, wbState_wf h]

theorem cycle_wf {s : State} (h : s.mem.wf = true) : (cycle s).mem.wf = true := by
  rw [cycle_mem]
  split
  · exact afterMemory_wf h
  · exact wbState_wf h

/-! ### Decode -/
theorem hazard_le (h : Handler) (e m w : Record) : hazard h e m w ≤ 4 := by
  unfold hazard loadUseHazard hiloHazard storeHazard
  simp only [Config.loadUseStall, Config.hiloStallE, Config.hiloStallM, Config.hiloStallW, Config.storeStallE, Config.storeStallM, Config.storeStallW]
  refine Nat.max_le.2 ⟨?_, Nat.max_le.2 ⟨?_, ?_⟩⟩
  all_goals (repeat' split) <;> omega

/-- Everything the Decode step can answer (R410, R427); `r` is its answer. -/
inductive IdCase (d : FetchLatch) (e m w : Record) (ss : Bool) (s : State) (r : IdResult) : Prop where
  | idle (h : ss = true ∨ (s.decoderStall = 0 ∧ d.valid = false)) (hr : r = ⟨.bubble, true, false, s⟩)
  | stalled (h : ss = false) (h2 : 0 < s.decoderStall)
      (hr : r = ⟨.bubble, false, false, { s with decoderStall := s.decoderStall - 1 }⟩)
  | fault (f : ModelFault) (h : ss = false) (h2 : s.decoderStall = 0) (hv : d.valid = true)
      (hf : d.ffault = some f)
      (hr : r = ⟨faultRecord d f s.bdPending, true, false, { s with bdPending := false }⟩)
  | waits (h : ss = false) (h2 : s.decoderStall = 0) (hv : d.valid = true) (hf : d.ffault = none)
      (hn : 0 < hazard (opHandler s.params (entryOp d.ins)) e m w)
      (hr : r = ⟨.bubble, false, false,
        { s with decoderStall := hazard (opHandler s.params (entryOp d.ins)) e m w - 1 }⟩)
  | issue (h : ss = false) (h2 : s.decoderStall = 0) (hv : d.valid = true) (hf : d.ffault = none)
      (hn : hazard (opHandler s.params (entryOp d.ins)) e m w = 0)
      (hr : r = ⟨issueRecord (entryOp d.ins) (opHandler s.params (entryOp d.ins)) d e m s, true,
        (issueRecord (entryOp d.ins) (opHandler s.params (entryOp d.ins)) d e m s).isCT,
        issueState (entryOp d.ins) (opHandler s.params (entryOp d.ins)) d e m s⟩)

theorem idStep_cases (d : FetchLatch) (e m w : Record) (ss : Bool) (s : State) :
    IdCase d e m w ss s (idStep d e m w ss s) := by
  unfold idStep
  cases hss : ss
  · simp only [Bool.false_eq_true, if_false]
    split
    · next h => exact .stalled rfl h rfl
    · next h =>
      have h0 : s.decoderStall = 0 := by omega
      split
      · next hv => exact .idle (.inr ⟨h0, hv⟩) rfl
      · next hv =>
        have hv : d.valid = true := by simpa using hv
        split
        · next f hf => exact .fault f rfl h0 hv hf rfl
        · next hf =>
          unfold idDecode
          dsimp only
          split
          · next hn => exact .waits rfl h0 hv hf hn rfl
          · next hn => exact .issue rfl h0 hv hf (by omega) rfl
  · exact .idle (.inl rfl) rfl

theorem idOut_cases (s : State) :
    IdCase s.ifid (exStepRecord s.params s.idex) (memOut s) s.memwb (afterMemory s).syscallStall (afterMemory s)
      (idOut s) := idStep_cases _ _ _ _ _ _

/-! ### A cycle that goes on -/
section goesOn
variable {s : State} (h : (wbState s.memwb s).status.isRunning = true)
include h
theorem goesOn_idex : (cycle s).idex = (idOut s).record := by rw [cycle_goes_on h]; simp
theorem goesOn_exmem : (cycle s).exmem = exStepRecord s.params s.idex := by rw [cycle_goes_on h]; simp
theorem goesOn_memwb : (cycle s).memwb = memOut s := by rw [cycle_goes_on h]; simp
theorem goesOn_byp : (cycle s).byp = (afterMemory s).byp := by rw [cycle_goes_on h]; simp [afterFetch, idOut]
theorem goesOn_decoderStall : (cycle s).decoderStall = (idOut s).state.decoderStall := by rw [cycle_goes_on h]; simp [afterFetch]
theorem goesOn_syscallStall : (cycle s).syscallStall = (idOut s).state.syscallStall := by rw [cycle_goes_on h]; simp [afterFetch]
theorem goesOn_bdPending : (cycle s).bdPending = (idOut s).state.bdPending := by rw [cycle_goes_on h]; simp [afterFetch]
theorem goesOn_branchStall : (cycle s).branchStall = (idOut s).newCT := by rw [cycle_goes_on h]; simp [afterFetch]
theorem goesOn_status : (cycle s).status = .running ∨ (cycle s).status = .stopped := by
  rw [cycle_goes_on h]
  unfold State.budgetCheck
  split
  · right; rfl
  · left
    simp [afterFetch, idOut]
    generalize wbState s.memwb s = x at h ⊢
    cases hx : x.status <;> simp [hx, Status.isRunning] at h ⊢

/-- Everything the fetch step can do (R480). -/
inductive FetchCase (s : State) : Prop where
  | held (h : (idOut s).consumed = false) (h1 : (cycle s).ifid = s.ifid)
      (h2 : (cycle s).pc = (afterMemory s).pc) (h3 : (cycle s).nfetched = (afterMemory s).nfetched)
  | gated (h : (idOut s).consumed = true)
      (hg : (afterMemory s).syscallStall = true ∨ s.branchStall = true ∨ (afterMemory s).budgetSpent = true)
      (h1 : (cycle s).ifid = .empty)
      (h2 : (cycle s).pc = (afterMemory s).pc) (h3 : (cycle s).nfetched = (afterMemory s).nfetched)
  | fetched (h : (idOut s).consumed = true) (hg : (afterMemory s).syscallStall = false)
      (hb : s.branchStall = false) (hbud : (afterMemory s).budgetSpent = false)
      (h1 : (cycle s).ifid = (afterMemory s).fetchEntry)
      (h2 : (cycle s).pc = (afterMemory s).pc + 4#32) (h3 : (cycle s).nfetched = (afterMemory s).nfetched + 1)

theorem fetch_cases : FetchCase s := by
  have hb : ∀ x : State, x.params = (afterMemory s).params → x.nfetched = (afterMemory s).nfetched → x.budgetSpent = (afterMemory s).budgetSpent := by
    intro x h1 h2; unfold State.budgetSpent; rw [h1,h2]
  have hf : ∀ x : State, x.params = (afterMemory s).params → x.pc = (afterMemory s).pc → x.mem = (afterMemory s).mem → x.fetchEntry = (afterMemory s).fetchEntry := by
    intro x h1 h2 h3; unfold State.fetchEntry; rw [h1,h2,h3]
  have e1 : (cycle s).ifid = (afterFetch s).ifid := by rw [cycle_goes_on h]; simp
  have e2 : (cycle s).pc = (afterFetch s).pc := by rw [cycle_goes_on h]; simp
  have e3 : (cycle s).nfetched = (afterFetch s).nfetched := by rw [cycle_goes_on h]; simp
  have hbud := hb { (idOut s).state with branchStall := (idOut s).newCT } (by simp [idOut]) (by simp [idOut])
  have hfe := hf { (idOut s).state with branchStall := (idOut s).newCT } (by simp [idOut]) (by simp [idOut]) (by simp [idOut])
  unfold afterFetch ifState at e1 e2 e3
  rw [hbud] at e1 e2 e3
  cases hc : (idOut s).consumed
  · simp only [hc, if_true] at e1 e2 e3
    exact .held hc (by rw [e1]; simp [idOut]) (by rw [e2]; simp [idOut]) (by rw [e3]; simp [idOut])
  · simp only [hc, Bool.true_eq_false, if_false] at e1 e2 e3
    cases hg : ((afterMemory s).syscallStall || s.branchStall || (afterMemory s).budgetSpent)
    · simp only [hg, Bool.false_eq_true, if_false] at e1 e2 e3
      simp only [Bool.or_eq_false_iff] at hg
      exact .fetched hc hg.1.1 hg.1.2 hg.2 (by rw [e1, hfe]) (by rw [e2]; simp [idOut]) (by rw [e3]; simp [idOut])
    · simp only [hg, if_true] at e1 e2 e3
      refine .gated hc ?_ e1 (by rw [e2]; simp [idOut]) (by rw [e3]; simp [idOut])
      simp only [Bool.or_eq_true] at hg
      rcases hg with (hg | hg) | hg
      · exact .inl hg
      · exact .inr (.inl hg)
      · exact .inr (.inr hg)
end goesOn

end Sys2Proof.Machine
end

