-- ==== Sys2Proof/Laws/Regs.lean ====
section
/-! SUPPORT. What the register-file operations can do: reading after writing, and register 0. -/

namespace Sys2Proof

variable (f : RegFile) (i j : RegIx) (v : Word)

theorem regIx_toNat_ne {i j : RegIx} (h : i ≠ j) : i.toNat ≠ j.toNat :=
  fun e => h (BitVec.eq_of_toNat_eq e)

@[simp] theorem RegFile.read_zero : f.read 0#5 = 0#32 := rfl

@[simp] theorem RegFile.write_zero : f.write 0#5 v = f := rfl

theorem RegFile.read_write_same (h : i ≠ 0#5) : (f.write i v).read i = v := by
  simp [RegFile.read, RegFile.write, h]

theorem RegFile.read_write_other (h : i ≠ j) : (f.write i v).read j = f.read j := by
  unfold RegFile.read RegFile.write
  split
  · rfl
  · split
    · rfl
    · exact Vector.getElem_set_ne i.isLt j.isLt (regIx_toNat_ne h)

/-- Reading after a write: the value where the register is the one written and not register 0. -/
theorem RegFile.read_write :
    (f.write i v).read j = if i = j ∧ i ≠ 0#5 then v else f.read j := by
  by_cases h : i = j
  · subst h
    by_cases h0 : i = 0#5
    · subst h0; rfl
    · rw [if_pos ⟨rfl, h0⟩, RegFile.read_write_same f i v h0]
  · rw [if_neg (fun e => h e.1), RegFile.read_write_other f i j v h]

theorem RegFile.readF_writeF :
    (f.writeF i v).readF j = if i = j then v else f.readF j := by
  unfold RegFile.readF RegFile.writeF
  by_cases h : i = j
  · subst h; simp
  · simp only [h, if_false]
    exact Vector.getElem_set_ne i.isLt j.isLt (regIx_toNat_ne h)

@[simp] theorem RegFile.forceR0_read : f.forceR0.read j = f.read j := by
  unfold RegFile.forceR0 RegFile.read
  split
  · rfl
  · next h => exact Vector.getElem_set_ne (by decide) j.isLt (fun e => h (BitVec.eq_of_toNat_eq e.symm))

end Sys2Proof
end

