-- ==== Sys2Proof/Laws/Invariant.lean ====
section
/-! SUPPORT. What the stages do to the tags of a record, to the write flags and to the bypass copy, one
lemma each; the parts of the pipeline's invariant. -/

namespace Sys2Proof.Machine

/-- A trap or an illegal op has no destination and no access (R421). -/
theorem opHandler_traps (p : Params) (op : Op) : ((opHandler p op).isSyscall = true ∨ (opHandler p op).isIllegal = true) → (opHandler p op).dst = .none ∧ (opHandler p op).mem = none := by
  cases op with
  | instr i =>
    intro h
    have : i = .syscall ∨ i = .brk := by
      rcases h with h | h
      · rw [show (opHandler p (.instr i)).isSyscall = _ from handlerOf_isSyscall p i] at h
        cases i <;> first | exact .inl rfl | exact .inr rfl | cases h
      · exact .inr ((handlerOf_isIllegal p i).1 h).1
    rcases this with rfl | rfl
    · exact ⟨rfl, rfl⟩
    · simp only [opHandler, handlerOf, handleBrk]; cases p.breakMode <;> exact ⟨rfl, rfl⟩
  | illegal => intro _; exact ⟨rfl, rfl⟩
  | fault => intro _; exact ⟨rfl, rfl⟩
  | bubble => intro _; exact ⟨rfl, rfl⟩

/-- A waiting word is never a bubble (R412). -/
theorem entryOp_ne_bubble (w) : entryOp w ≠ .bubble := by unfold entryOp; split <;> simp

/-- What Decode issues keeps the tag rules, and is no bubble (R412, R428). -/
theorem issueRecord_tags (op : Op) (p : Params) (hop : op ≠ .bubble) (d e m s) : (issueRecord op (opHandler p op) d e m s).tagsOk ∧ (issueRecord op (opHandler p op) d e m s).isBubble = false := by
  have hb : (issueRecord op (opHandler p op) d e m s).isBubble = false := by
    unfold issueRecord; dsimp only; split <;> simp [Record.isBubble, Record.refuse, makeRecord] <;> split <;> simp [hop]
  refine ⟨⟨(fun h => by rw [hb] at h; cases h), (fun h => ?_), ?_⟩, hb⟩
  rotate_left
  · unfold issueRecord; dsimp only; split
    · intro _; rfl
    · intro h
      cases op with
      | instr i =>
        have h1 : (handlerOf p i).isStore = true := h
        rw [handlerOf_isStore] at h1
        show (handlerOf p i).dst = _
        rw [handlerOf_dst]
        cases i <;> first | rfl | cases h1
      | illegal => rfl
      | fault => rfl
      | bubble => rfl
  unfold issueRecord at h ⊢; dsimp only at h ⊢
  split
  · exact ⟨rfl, rfl⟩
  · next hh => rw [if_neg hh] at h; exact opHandler_traps p op h

/-- A bubble keeps the tag rules (R121). -/
theorem bubble_tags : Record.bubble.tagsOk := ⟨fun _ => rfl, fun _ => ⟨rfl, rfl⟩, fun _ => rfl⟩

/-- Execute keeps the tag rules (R440). -/
theorem exStepRecord_tagsOk {p e} (h : Record.tagsOk e) : (exStepRecord p e).tagsOk := by
  refine ⟨fun hb => ?_, fun hb => ?_, fun hb => ?_⟩
  · have : e.isBubble = true := by simpa [Record.isBubble] using hb
    have := h.1 this; subst this; rfl
  · simp at hb ⊢; exact h.2.1 hb
  · simp [Record.isStore] at hb ⊢; exact h.2.2 hb

/-- Memory keeps the tag rules (R450). -/
theorem memRecord_tagsOk {e s} (h : Record.tagsOk e) : (memRecord e s).tagsOk := by
  refine ⟨fun hb => ?_, fun hb => ?_, fun hb => ?_⟩
  · have : e.isBubble = true := by simpa [Record.isBubble] using hb
    have := h.1 this; subst this; rfl
  · simp at hb ⊢; exact h.2.1 hb
  · simp [Record.isStore] at hb ⊢; exact h.2.2 hb

/-- Whatever Decode answers keeps the tag rules (R410). -/
theorem idOut_tagsOk (s : State) : (idOut s).record.tagsOk := by
  cases idOut_cases s with
  | idle _ hr => rw [hr]; exact bubble_tags
  | stalled _ _ hr => rw [hr]; exact bubble_tags
  | waits _ _ _ _ _ hr => rw [hr]; exact bubble_tags
  | fault f _ _ _ _ hr =>
    rw [hr]
    exact ⟨fun hb => by simp [faultRecord, Record.isBubble] at hb, fun _ => ⟨rfl, rfl⟩, fun _ => rfl⟩
  | issue _ _ _ _ _ hr => rw [hr]; exact (issueRecord_tags _ _ (entryOp_ne_bubble _) _ _ _ _).1

/-- Execute on a record it does not skip and that does not raise (R440). -/
theorem exState_ok {op : Record → Record} {e : Record} (s : State) (h1 : e.skipsExecute = false) (h2 : (op e).exc = none) :
    exState op e s = exBranch (op e) (exCommit (op e) s.clearWflag) := by simp [exState, h1, h2]
/-- Execute on a record it skips or that raises (R15, R440). -/
theorem exState_skip {op : Record → Record} {e : Record} (s : State) (h : e.skipsExecute = true ∨ (op e).exc ≠ none) :
    exState op e s = s.clearWflag := by
  rcases h with h | h
  · simp [exState, h]
  · have : (op e).exc.isSome = true := by cases hx : (op e).exc <;> simp_all
    simp [exState, this]

/-- What Execute skips has no general-register result to show. -/
theorem skipped_overlay {e : Record} (ht : e.tagsOk) (hk : e.skipsExecute = true) (f : RegFile) :
    e.overlayExecuted f = f ∧ (e.exc ≠ none ∨ e.dst = .none) := by
  simp only [Record.skipsExecute, Bool.or_eq_true] at hk
  have : e.exc ≠ none ∨ e.dst = .none := by
    rcases hk with ((h | h) | h) | h
    · right; rw [ht.1 h]; rfl
    · right; exact (ht.2.1 (.inl h)).1
    · right; exact (ht.2.1 (.inr h)).1
    · left; intro hx; simp [hx] at h
  refine ⟨?_, this⟩
  unfold Record.overlayExecuted Record.overlay
  split
  · rfl
  · split
    · next hx hd => rcases this with h | h
                    · exact absurd hx h
                    · rw [h] at hd; cases hd
    · rfl

/-- The bypass copy after Execute (R441). -/
theorem exStepState_byp_read (s : State) (e : Record) (ht : e.tagsOk) (p : Params) (hp : s.params = p) (i : RegIx) :
    (exStepState e s).byp.read i = ((exStepRecord p e).overlayExecuted s.byp).read i := by
  subst hp
  unfold exStepState exStepRecord exRecord
  cases hk : e.skipsExecute
  · simp only [Bool.false_eq_true, if_false]
    by_cases hx : ((opHandler s.params e.op).operate e).exc = none
    · rw [exState_ok s hk hx]
      generalize (opHandler s.params e.op).operate e = e' at *
      have : (exBranch e' (exCommit e' s.clearWflag)).byp = (exCommit e' s.clearWflag).byp := by
        unfold exBranch; split <;> simp
      rw [this]
      simp only [Record.overlayExecuted, Record.overlay, hx, exCommit]
      cases hd : e'.dst <;> cases hl : e'.isLoad <;> simp [Record.result, hl]
    · rw [exState_skip s (.inr hx)]
      generalize (opHandler s.params e.op).operate e = e' at *
      have : e'.overlayExecuted s.byp = s.byp := by
        unfold Record.overlayExecuted Record.overlay
        split
        · rfl
        · split
          · next h _ => exact absurd h hx
          · rfl
      rw [this]; rfl
  · rw [exState_skip s (.inl hk), if_pos rfl, (skipped_overlay ht hk _).1]; rfl

/-- One register of an overlay. -/
theorem overlay_read (r : Record) (f : RegFile) (i : RegIx) (hi : i ≠ 0#5) : (r.overlay f).read i = if r.exc = none ∧ r.dst = .gpr i then r.result else f.read i := by
  unfold Record.overlay
  cases hx : r.exc <;> cases hd : r.dst <;> simp
  next j => 
    rw [RegFile.read_write]
    by_cases h : j = i
    · subst h; simp [hi]
    · simp [h]

/-- The bypass copy after Memory (R456). -/
theorem memState_byp_read (s : State) (m : Record) (i : RegIx) (hi : i ≠ 0#5) :
   (memState m s).byp.read i = if (memRecord m s).isLoad = true ∧ (memRecord m s).exc = none ∧ m.dst = .gpr i ∧ s.wflag[i.toNat] = false then (memRecord m s).result else s.byp.read i := by
  unfold memState memRecord
  cases hm : m.mem with
  | none => simp [Record.isLoad, hm]
  | some k =>
    cases hx : m.exc with
    | some x => simp [hx]
    | none =>
      simp only [Option.isSome_none, Bool.false_or, Bool.false_eq_true, if_false]
      cases hf : accessFault s.params k m.addr with
      | some f => simp [Record.raise]
      | none =>
        simp only [Option.isSome_none, Bool.false_eq_true, if_false]
        unfold memAccess
        cases hl : k.isLoad
        · simp [Record.isLoad, hm, hl]
        · simp only [if_true]
          have : Record.isLoad { m with loadVal := loadValue k s.mem m.addr m.vrt } = true := by simp [Record.isLoad, hm, hl]
          simp only [Record.isLoad, hl, Record.result, if_true, true_and]
          cases hd : m.dst with
          | gpr j =>
            simp only [deferredCommit_byp, Dst.gpr.injEq]
            by_cases hj : j = i
            · subst hj
              by_cases hw : s.wflag[j.toNat] = false
              · simp [hi, hw, RegFile.read_write]
              · simp [hw]
            · by_cases hc : j ≠ 0#5 ∧ s.wflag[j.toNat] = false
              · rw [if_pos hc, RegFile.read_write]; simp [hj]
              · rw [if_neg hc]; simp [hj]
          | none => simp
          | fpr j => simp
          | hilo a b => simp

/-- The write flags after the early commit (R441). -/
theorem exCommit_wflag (e : Record) (s : State) (i : RegIx) :
    (exCommit e s).wflag[i.toNat] = if e.isLoad = false ∧ e.dst = .gpr i then true else s.wflag[i.toNat] := by
  unfold exCommit
  split
  · next j hd =>
    split
    · next hl => simp [hl]
    · next hl =>
      by_cases hj : j = i
      · subst hj; simp [hl, hd]
      · simp [hl, hd, hj]
        rw [Vector.getElem_set_ne _ _ (regIx_toNat_ne hj)]
  all_goals next hd => simp [hd]

/-- The write flags after Execute: exactly the register of an early commit (R112, R441). -/
theorem exStepState_wflag (s : State) (e : Record) (ht : e.tagsOk) (i : RegIx) :
   (exStepState e s).wflag[i.toNat] = true ↔ (exStepRecord s.params e).isLoad = false ∧ (exStepRecord s.params e).exc = none ∧ e.dst = .gpr i := by
  unfold exStepState exStepRecord exRecord
  have hc : s.clearWflag.wflag[i.toNat] = false := by simp [clearFlags]
  cases hk : e.skipsExecute
  · simp only [Bool.false_eq_true, if_false]
    have tg := opHandler_tags s.params e.op e
    by_cases hx : ((opHandler s.params e.op).operate e).exc = none
    · rw [exState_ok s hk hx]
      have : (exBranch ((opHandler s.params e.op).operate e) (exCommit ((opHandler s.params e.op).operate e) s.clearWflag)).wflag = (exCommit ((opHandler s.params e.op).operate e) s.clearWflag).wflag := by unfold exBranch; split <;> simp
      simp only [this, exCommit_wflag, tg.dst, hx, hc]
      simp
    · rw [exState_skip s (.inr hx), hc]; simp [hx]
  · rw [exState_skip s (.inl hk), hc]
    simp only [if_true]
    rcases (skipped_overlay ht hk s.byp).2 with h | h <;> simp [h]

/-- One register of an overlay of an executed record. -/
theorem overlayExecuted_read (r : Record) (f : RegFile) (i : RegIx) (hi : i ≠ 0#5) : (r.overlayExecuted f).read i = if r.isLoad = false ∧ r.exc = none ∧ r.dst = .gpr i then r.result else f.read i := by
  unfold Record.overlayExecuted
  cases hl : r.isLoad <;> simp [overlay_read _ _ _ hi]

/-- A cycle that goes on keeps the bypass copy at the newest values (R104). -/
theorem cycle_byp_read (s : State) (hI : s.Inv) (hs : s.status = .running) (hr : (wbState s.memwb s).status.isRunning = true) (i) : (cycle s).byp.read i = (cycle s).newest.read i := by
  by_cases hi : i = 0#5
  · subst hi; simp
  unfold State.newest
  rw [overlayExecuted_read _ _ _ hi, overlay_read _ _ _ hi, goesOn_byp hr, goesOn_exmem hr, goesOn_memwb hr, cycle_gpr]
  unfold afterMemory memOut
  rw [memState_byp_read _ _ _ hi]
  rw [exStepState_byp_read _ _ hI.idexTags s.params (by simp), overlayExecuted_read _ _ _ hi]
  have hw := exStepState_wflag (wbState s.memwb s) s.idex hI.idexTags i
  simp only [wbState_params] at hw
  simp only [exStepRecord_dst, memRecord_dst]
  -- older part
  have old : (memRecord s.exmem (exStepState s.idex (wbState s.memwb s))).isLoad = s.exmem.isLoad := by simp [Record.isLoad]
  have base : (wbState s.memwb s).byp.read i = if s.exmem.isLoad = false ∧ s.exmem.exc = none ∧ s.exmem.dst = .gpr i then s.exmem.result else (wbState s.memwb s).gpr.read i := by
    obtain ⟨hx, hh⟩ := wbState_running _ _ hr
    have hb := hI.bypass hs i
    unfold State.newest at hb
    rw [overlayExecuted_read _ _ _ hi, overlay_read _ _ _ hi] at hb
    rcases hh with ⟨h1,h2⟩ | ⟨h1, h2, ⟨h3,h4⟩ | ⟨h3,h4⟩⟩
    · rw [h2, hb]
      have : s.memwb.dst = .none := by rw [hI.memwbTags.1 h1]; rfl
      simp [this]
    · obtain ⟨a,b,c⟩ := hI.drainMemwb hs h3
      rw [h4, b]; simp [Record.bubble]
      rw [h4] at hr
      unfold State.trap State.trapWith at hr ⊢
      dsimp only at hr ⊢
      split
      · next hl => simp [hl, Status.isRunning] at hr
      · simp
    · rw [h4]
      have e1 : (commit s.memwb s).byp = s.byp := by simp
      rw [e1, hb]
      have e2 : (commit s.memwb s).gpr.read i = if s.memwb.dst = .gpr i then s.memwb.result else s.gpr.read i := by
        unfold commit
        cases hd : s.memwb.dst <;> simp
        next j => rw [RegFile.read_write]; by_cases hj : j = i
                  · subst hj; simp [hi]
                  · simp [hj]
      rw [e2]; simp [hx]
  rw [base, old]
  have mr : s.exmem.isLoad = false → (memRecord s.exmem (exStepState s.idex (wbState s.memwb s))).result = s.exmem.result := by
    intro hl; unfold Record.result; rw [old, hl]; simp
  by_cases hE : (exStepRecord s.params s.idex).isLoad = false ∧ (exStepRecord s.params s.idex).exc = none ∧ s.idex.dst = .gpr i
  · have := hw.2 hE
    simp [hE, this]
  · have hwf : (exStepState s.idex (wbState s.memwb s)).wflag[i.toNat] = false := by
      cases hq : (exStepState s.idex (wbState s.memwb s)).wflag[i.toNat] with
      | false => rfl
      | true => exact absurd (hw.1 hq) hE
    rw [if_neg hE, if_neg hE]
    simp only [hwf]
    cases hl : s.exmem.isLoad
    · -- nonload: exc same
      have hxx : s.exmem.exc = none ∧ s.exmem.dst = .gpr i ↔ (memRecord s.exmem (exStepState s.idex (wbState s.memwb s))).exc = none ∧ s.exmem.dst = .gpr i := by
        constructor
        · rintro ⟨h1,h2⟩
          refine ⟨?_, h2⟩
          have hm : s.exmem.mem = none := by
            cases hm : s.exmem.mem with
            | none => rfl
            | some k =>
              have : s.exmem.isStore = true := by simp [Record.isStore, Record.isLoad, hm] at hl ⊢; exact hl
              rw [hI.exmemTags.2.2 this] at h2; cases h2
          simp [memRecord, hm, h1]
        · rintro ⟨h1,h2⟩
          refine ⟨?_, h2⟩
          have hm : s.exmem.mem = none := by
            cases hm : s.exmem.mem with
            | none => rfl
            | some k =>
              have : s.exmem.isStore = true := by simp [Record.isStore, Record.isLoad, hm] at hl ⊢; exact hl
              rw [hI.exmemTags.2.2 this] at h2; cases h2
          simpa [memRecord, hm] using h1
      simp [mr hl]
      split <;> split <;> simp_all
    · simp

/-- `pc` after Memory: only a taken control transfer in Execute moves it (R110, R443). -/
theorem afterMemory_pc (s : State) : (wbState s.memwb s).pc = s.pc → (s.idex.isCT = false ∨ s.idex.isSyscall = true ∨ (exStepRecord s.params s.idex).btaken = false) → (afterMemory s).pc = s.pc := by
  intro h1 h2
  unfold afterMemory
  simp only [memState_pc]
  unfold exStepState
  simp only [wbState_params]
  by_cases hk : s.idex.skipsExecute = true ∨ ((opHandler s.params s.idex.op).operate s.idex).exc ≠ none
  · rw [exState_skip _ hk]; exact h1
  · simp only [not_or, Bool.not_eq_true, Decidable.not_not, ne_eq] at hk
    rw [exState_ok _ hk.1 hk.2]
    unfold exBranch
    have tg := opHandler_tags s.params s.idex.op s.idex
    rw [tg.isCT]
    split
    · next hc =>
      simp
      have : (exStepRecord s.params s.idex) = (opHandler s.params s.idex.op).operate s.idex := by
        unfold exStepRecord exRecord; rw [hk.1]; rfl
      rcases h2 with h2 | h2 | h2
      · rw [h2] at hc; cases hc
      · have := hk.1; simp [Record.skipsExecute, h2] at this
      · rw [this] at h2; rw [h2]; simpa using h1
    · simpa using h1

/-- Writeback without a trap leaves `pc`, the syscall gate and the fetch counter (R110, R115, R118). -/
theorem wbState_no_trap {s : State} (h : s.memwb.isSyscall = false) (hr : (wbState s.memwb s).status.isRunning = true) :
   (wbState s.memwb s).pc = s.pc ∧ (wbState s.memwb s).syscallStall = s.syscallStall ∧ (wbState s.memwb s).nfetched = s.nfetched := by
  obtain ⟨_, hh⟩ := wbState_running _ _ hr
  rcases hh with ⟨_, h2⟩ | ⟨_, _, ⟨h3, _⟩ | ⟨_, h4⟩⟩
  · rw [h2]; simp
  · rw [h] at h3; cases h3
  · rw [h4]; simp

/-- A trap that does not leave opens the gate and resumes (R813, R814). -/
theorem wbState_trap_resumes {s : State} (h : s.memwb.isSyscall = true) (ht : s.memwb.tagsOk) (hr : (wbState s.memwb s).status.isRunning = true) :
   (wbState s.memwb s).syscallStall = false ∧ (wbState s.memwb s) = ({ s with nfetched := s.nfetched - 1 }.applyReply (s.sysReply s.memwb)).resume s.memwb := by
  obtain ⟨_, hh⟩ := wbState_running _ _ hr
  rcases hh with ⟨h1, h2⟩ | ⟨_, _, ⟨_, h4⟩ | ⟨h3, _⟩⟩
  · rw [ht.1 h1] at h; cases h
  · rw [h4] at hr ⊢
    unfold State.trap State.trapWith at hr ⊢
    dsimp only at hr ⊢
    split
    · next hl => simp [hl, Status.isRunning] at hr
    · exact ⟨rfl, rfl⟩
  · rw [h] at h3; cases h3


end Sys2Proof.Machine
end

