-- ==== Sys2Proof/Laws/PerInstr.lean ====
section
/-! SUPPORT. The family `TableRow`: for each instruction, the bits its opcode-table row fixes are the bits
its word has (R310 to R314). -/

namespace Sys2Proof.Laws.TableRow

/-- The fixed fields of an instruction's row of spec/opcode_table.json. -/
inductive Selector where
  | primary (opcode : BitVec 6)
  | special (funct : BitVec 6)
  | regimm (rt : BitVec 5)
  | cop1 (fmt : BitVec 5)
  deriving DecidableEq, Repr

/-- The word has the fixed fields. -/
def Selector.selects : Selector → Word → Prop
  | .primary op, w => opcodeOf w = op
  | .special fn, w => opcodeOf w = 0x00#6 ∧ functOf w = fn
  | .regimm rt, w => opcodeOf w = 0x01#6 ∧ rtOf w = rt
  | .cop1 fmt, w => opcodeOf w = 0x11#6 ∧ rsOf w = fmt

/-- The rows of the table. -/
def selector : Instr → Selector
  | .add .. => .special 0x20#6
  | .addu .. => .special 0x21#6
  | .sub .. => .special 0x22#6
  | .subu .. => .special 0x23#6
  | .and .. => .special 0x24#6
  | .or .. => .special 0x25#6
  | .xor .. => .special 0x26#6
  | .nor .. => .special 0x27#6
  | .slt .. => .special 0x2a#6
  | .sltu .. => .special 0x2b#6
  | .sll .. => .special 0x00#6
  | .srl .. => .special 0x02#6
  | .sra .. => .special 0x03#6
  | .sllv .. => .special 0x04#6
  | .srlv .. => .special 0x06#6
  | .srav .. => .special 0x07#6
  | .addi .. => .primary 0x08#6
  | .addiu .. => .primary 0x09#6
  | .slti .. => .primary 0x0a#6
  | .sltiu .. => .primary 0x0b#6
  | .andi .. => .primary 0x0c#6
  | .ori .. => .primary 0x0d#6
  | .xori .. => .primary 0x0e#6
  | .lui .. => .primary 0x0f#6
  | .mult .. => .special 0x18#6
  | .multu .. => .special 0x19#6
  | .div .. => .special 0x1a#6
  | .divu .. => .special 0x1b#6
  | .mfhi .. => .special 0x10#6
  | .mflo .. => .special 0x12#6
  | .mthi .. => .special 0x11#6
  | .mtlo .. => .special 0x13#6
  | .beq .. => .primary 0x04#6
  | .bne .. => .primary 0x05#6
  | .blez .. => .primary 0x06#6
  | .bgtz .. => .primary 0x07#6
  | .bltz .. => .regimm 0x00#5
  | .bgez .. => .regimm 0x01#5
  | .bltzal .. => .regimm 0x10#5
  | .bgezal .. => .regimm 0x11#5
  | .j .. => .primary 0x02#6
  | .jal .. => .primary 0x03#6
  | .jr .. => .special 0x08#6
  | .jalr .. => .special 0x09#6
  | .lb .. => .primary 0x20#6
  | .lbu .. => .primary 0x24#6
  | .lh .. => .primary 0x21#6
  | .lhu .. => .primary 0x25#6
  | .lw .. => .primary 0x23#6
  | .lwc1 .. => .primary 0x31#6
  | .lwl .. => .primary 0x22#6
  | .lwr .. => .primary 0x26#6
  | .sb .. => .primary 0x28#6
  | .sh .. => .primary 0x29#6
  | .sw .. => .primary 0x2b#6
  | .swc1 .. => .primary 0x39#6
  | .swl .. => .primary 0x2a#6
  | .swr .. => .primary 0x2e#6
  | .syscall => .special 0x0c#6
  | .brk => .special 0x0d#6
  | .mfc1 .. => .cop1 0x00#5
  | .mtc1 .. => .cop1 0x04#5

/-- The word of the instruction has the fixed fields of its row. -/
def Statement (i : Instr) : Prop := (selector i).selects (encode i)

theorem statement (i : Instr) : Statement i := by
  cases i <;> simp [Statement, Selector.selects, selector, encode, special]

theorem add : ∀ a b c, Statement (.add a b c) := fun _ _ _ => statement _
theorem addu : ∀ a b c, Statement (.addu a b c) := fun _ _ _ => statement _
theorem sub : ∀ a b c, Statement (.sub a b c) := fun _ _ _ => statement _
theorem subu : ∀ a b c, Statement (.subu a b c) := fun _ _ _ => statement _
theorem and : ∀ a b c, Statement (.and a b c) := fun _ _ _ => statement _
theorem or : ∀ a b c, Statement (.or a b c) := fun _ _ _ => statement _
theorem xor : ∀ a b c, Statement (.xor a b c) := fun _ _ _ => statement _
theorem nor : ∀ a b c, Statement (.nor a b c) := fun _ _ _ => statement _
theorem slt : ∀ a b c, Statement (.slt a b c) := fun _ _ _ => statement _
theorem sltu : ∀ a b c, Statement (.sltu a b c) := fun _ _ _ => statement _
theorem sll : ∀ a b c, Statement (.sll a b c) := fun _ _ _ => statement _
theorem srl : ∀ a b c, Statement (.srl a b c) := fun _ _ _ => statement _
theorem sra : ∀ a b c, Statement (.sra a b c) := fun _ _ _ => statement _
theorem sllv : ∀ a b c, Statement (.sllv a b c) := fun _ _ _ => statement _
theorem srlv : ∀ a b c, Statement (.srlv a b c) := fun _ _ _ => statement _
theorem srav : ∀ a b c, Statement (.srav a b c) := fun _ _ _ => statement _
theorem addi : ∀ a b c, Statement (.addi a b c) := fun _ _ _ => statement _
theorem addiu : ∀ a b c, Statement (.addiu a b c) := fun _ _ _ => statement _
theorem slti : ∀ a b c, Statement (.slti a b c) := fun _ _ _ => statement _
theorem sltiu : ∀ a b c, Statement (.sltiu a b c) := fun _ _ _ => statement _
theorem andi : ∀ a b c, Statement (.andi a b c) := fun _ _ _ => statement _
theorem ori : ∀ a b c, Statement (.ori a b c) := fun _ _ _ => statement _
theorem xori : ∀ a b c, Statement (.xori a b c) := fun _ _ _ => statement _
theorem lui : ∀ a b, Statement (.lui a b) := fun _ _ => statement _
theorem mult : ∀ a b, Statement (.mult a b) := fun _ _ => statement _
theorem multu : ∀ a b, Statement (.multu a b) := fun _ _ => statement _
theorem div : ∀ a b, Statement (.div a b) := fun _ _ => statement _
theorem divu : ∀ a b, Statement (.divu a b) := fun _ _ => statement _
theorem mfhi : ∀ a, Statement (.mfhi a) := fun _ => statement _
theorem mflo : ∀ a, Statement (.mflo a) := fun _ => statement _
theorem mthi : ∀ a, Statement (.mthi a) := fun _ => statement _
theorem mtlo : ∀ a, Statement (.mtlo a) := fun _ => statement _
theorem beq : ∀ a b c, Statement (.beq a b c) := fun _ _ _ => statement _
theorem bne : ∀ a b c, Statement (.bne a b c) := fun _ _ _ => statement _
theorem blez : ∀ a b, Statement (.blez a b) := fun _ _ => statement _
theorem bgtz : ∀ a b, Statement (.bgtz a b) := fun _ _ => statement _
theorem bltz : ∀ a b, Statement (.bltz a b) := fun _ _ => statement _
theorem bgez : ∀ a b, Statement (.bgez a b) := fun _ _ => statement _
theorem bltzal : ∀ a b, Statement (.bltzal a b) := fun _ _ => statement _
theorem bgezal : ∀ a b, Statement (.bgezal a b) := fun _ _ => statement _
theorem j : ∀ a, Statement (.j a) := fun _ => statement _
theorem jal : ∀ a, Statement (.jal a) := fun _ => statement _
theorem jr : ∀ a, Statement (.jr a) := fun _ => statement _
theorem jalr : ∀ a b, Statement (.jalr a b) := fun _ _ => statement _
theorem lb : ∀ a b c, Statement (.lb a b c) := fun _ _ _ => statement _
theorem lbu : ∀ a b c, Statement (.lbu a b c) := fun _ _ _ => statement _
theorem lh : ∀ a b c, Statement (.lh a b c) := fun _ _ _ => statement _
theorem lhu : ∀ a b c, Statement (.lhu a b c) := fun _ _ _ => statement _
theorem lw : ∀ a b c, Statement (.lw a b c) := fun _ _ _ => statement _
theorem lwc1 : ∀ a b c, Statement (.lwc1 a b c) := fun _ _ _ => statement _
theorem lwl : ∀ a b c, Statement (.lwl a b c) := fun _ _ _ => statement _
theorem lwr : ∀ a b c, Statement (.lwr a b c) := fun _ _ _ => statement _
theorem sb : ∀ a b c, Statement (.sb a b c) := fun _ _ _ => statement _
theorem sh : ∀ a b c, Statement (.sh a b c) := fun _ _ _ => statement _
theorem sw : ∀ a b c, Statement (.sw a b c) := fun _ _ _ => statement _
theorem swc1 : ∀ a b c, Statement (.swc1 a b c) := fun _ _ _ => statement _
theorem swl : ∀ a b c, Statement (.swl a b c) := fun _ _ _ => statement _
theorem swr : ∀ a b c, Statement (.swr a b c) := fun _ _ _ => statement _
theorem syscall : Statement .syscall := statement _
theorem brk : Statement .brk := statement _
theorem mfc1 : ∀ a b, Statement (.mfc1 a b) := fun _ _ => statement _
theorem mtc1 : ∀ a b, Statement (.mtc1 a b) := fun _ _ => statement _

end Sys2Proof.Laws.TableRow
end

