-- ==== Sys2Proof/Tests/Slice0.lean ====
section
/-! SUPPORT. Tests of the model on words and values taken from the spec (opcode_table.json, the examples of
the rules, 95_test_vectors.md), the smoke tests of the well-formedness checks, and for every statement a
state and operands that meet its hypotheses. -/

namespace Sys2Proof.Tests

open Sys2Proof Sys2Proof.Machine

/-- The instruction an answer of the decoder holds. -/
def instrOf : Except Reject Instr → Option Instr
  | .ok i => some i
  | .error _ => none

/-- The reason of a rejection. -/
def rejectOf : Except Reject Instr → Option Reject
  | .ok _ => none
  | .error e => some e

/-- What the decoder reads from a word. -/
def decoded (w : Word) : Option Instr := instrOf (decode w)

/-! ### Decoding: words written from opcode_table.json, unused fields not zero (R310 to R314, R322) -/

theorem test_decode_register_register :
    decoded 0b000000_00001_00010_00011_10101_100000#32 = some (.add 3#5 1#5 2#5) ∧
    decoded 0b000000_00001_00010_00011_10101_100001#32 = some (.addu 3#5 1#5 2#5) ∧
    decoded 0b000000_00001_00010_00011_10101_100010#32 = some (.sub 3#5 1#5 2#5) ∧
    decoded 0b000000_00001_00010_00011_10101_100011#32 = some (.subu 3#5 1#5 2#5) ∧
    decoded 0b000000_00001_00010_00011_10101_100100#32 = some (.and 3#5 1#5 2#5) ∧
    decoded 0b000000_00001_00010_00011_10101_100101#32 = some (.or 3#5 1#5 2#5) ∧
    decoded 0b000000_00001_00010_00011_10101_100110#32 = some (.xor 3#5 1#5 2#5) ∧
    decoded 0b000000_00001_00010_00011_10101_100111#32 = some (.nor 3#5 1#5 2#5) ∧
    decoded 0b000000_00001_00010_00011_10101_101010#32 = some (.slt 3#5 1#5 2#5) ∧
    decoded 0b000000_00001_00010_00011_10101_101011#32 = some (.sltu 3#5 1#5 2#5) := by decide

theorem test_decode_shift :
    decoded 0b000000_00001_00010_00011_10101_000000#32 = some (.sll 3#5 2#5 21) ∧
    decoded 0b000000_00001_00010_00011_10101_000010#32 = some (.srl 3#5 2#5 21) ∧
    decoded 0b000000_00001_00010_00011_10101_000011#32 = some (.sra 3#5 2#5 21) ∧
    decoded 0b000000_00001_00010_00011_10101_000100#32 = some (.sllv 3#5 2#5 1#5) ∧
    decoded 0b000000_00001_00010_00011_10101_000110#32 = some (.srlv 3#5 2#5 1#5) ∧
    decoded 0b000000_00001_00010_00011_10101_000111#32 = some (.srav 3#5 2#5 1#5) := by decide

theorem test_decode_register_immediate :
    decoded 0b001000_00001_00010_1000000000000001#32 = some (.addi 2#5 1#5 0x8001#16) ∧
    decoded 0b001001_00001_00010_1000000000000001#32 = some (.addiu 2#5 1#5 0x8001#16) ∧
    decoded 0b001010_00001_00010_1000000000000001#32 = some (.slti 2#5 1#5 0x8001#16) ∧
    decoded 0b001011_00001_00010_1000000000000001#32 = some (.sltiu 2#5 1#5 0x8001#16) ∧
    decoded 0b001100_00001_00010_1000000000000001#32 = some (.andi 2#5 1#5 0x8001#16) ∧
    decoded 0b001101_00001_00010_1000000000000001#32 = some (.ori 2#5 1#5 0x8001#16) ∧
    decoded 0b001110_00001_00010_1000000000000001#32 = some (.xori 2#5 1#5 0x8001#16) ∧
    decoded 0b001111_00001_00010_1000000000000001#32 = some (.lui 2#5 0x8001#16) := by decide

theorem test_decode_multiply_divide :
    decoded 0b000000_00001_00010_00011_10101_011000#32 = some (.mult 1#5 2#5) ∧
    decoded 0b000000_00001_00010_00011_10101_011001#32 = some (.multu 1#5 2#5) ∧
    decoded 0b000000_00001_00010_00011_10101_011010#32 = some (.div 1#5 2#5) ∧
    decoded 0b000000_00001_00010_00011_10101_011011#32 = some (.divu 1#5 2#5) ∧
    decoded 0b000000_00001_00010_00011_10101_010000#32 = some (.mfhi 3#5) ∧
    decoded 0b000000_00001_00010_00011_10101_010010#32 = some (.mflo 3#5) ∧
    decoded 0b000000_00001_00010_00011_10101_010001#32 = some (.mthi 1#5) ∧
    decoded 0b000000_00001_00010_00011_10101_010011#32 = some (.mtlo 1#5) := by decide

theorem test_decode_branch :
    decoded 0b000100_00001_00010_1000000000000001#32 = some (.beq 1#5 2#5 0x8001#16) ∧
    decoded 0b000101_00001_00010_1000000000000001#32 = some (.bne 1#5 2#5 0x8001#16) ∧
    decoded 0b000110_00001_00010_1000000000000001#32 = some (.blez 1#5 0x8001#16) ∧
    decoded 0b000111_00001_00010_1000000000000001#32 = some (.bgtz 1#5 0x8001#16) ∧
    decoded 0b000001_00001_00000_1000000000000001#32 = some (.bltz 1#5 0x8001#16) ∧
    decoded 0b000001_00001_00001_1000000000000001#32 = some (.bgez 1#5 0x8001#16) ∧
    decoded 0b000001_00001_10000_1000000000000001#32 = some (.bltzal 1#5 0x8001#16) ∧
    decoded 0b000001_00001_10001_1000000000000001#32 = some (.bgezal 1#5 0x8001#16) := by decide

theorem test_decode_jump :
    decoded 0b000010_10000000000000000000000001#32 = some (.j 0x2000001#26) ∧
    decoded 0b000011_10000000000000000000000001#32 = some (.jal 0x2000001#26) ∧
    decoded 0b000000_00001_00010_00011_10101_001000#32 = some (.jr 1#5) ∧
    decoded 0b000000_00001_00010_00011_10101_001001#32 = some (.jalr 3#5 1#5) := by decide

theorem test_decode_load :
    decoded 0b100000_00001_00010_1000000000000001#32 = some (.lb 2#5 0x8001#16 1#5) ∧
    decoded 0b100100_00001_00010_1000000000000001#32 = some (.lbu 2#5 0x8001#16 1#5) ∧
    decoded 0b100001_00001_00010_1000000000000001#32 = some (.lh 2#5 0x8001#16 1#5) ∧
    decoded 0b100101_00001_00010_1000000000000001#32 = some (.lhu 2#5 0x8001#16 1#5) ∧
    decoded 0b100011_00001_00010_1000000000000001#32 = some (.lw 2#5 0x8001#16 1#5) ∧
    decoded 0b100010_00001_00010_1000000000000001#32 = some (.lwl 2#5 0x8001#16 1#5) ∧
    decoded 0b100110_00001_00010_1000000000000001#32 = some (.lwr 2#5 0x8001#16 1#5) ∧
    decoded 0b110001_00001_00010_1000000000000001#32 = some (.lwc1 2#5 0x8001#16 1#5) := by decide

theorem test_decode_store :
    decoded 0b101000_00001_00010_1000000000000001#32 = some (.sb 2#5 0x8001#16 1#5) ∧
    decoded 0b101001_00001_00010_1000000000000001#32 = some (.sh 2#5 0x8001#16 1#5) ∧
    decoded 0b101011_00001_00010_1000000000000001#32 = some (.sw 2#5 0x8001#16 1#5) ∧
    decoded 0b101010_00001_00010_1000000000000001#32 = some (.swl 2#5 0x8001#16 1#5) ∧
    decoded 0b101110_00001_00010_1000000000000001#32 = some (.swr 2#5 0x8001#16 1#5) ∧
    decoded 0b111001_00001_00010_1000000000000001#32 = some (.swc1 2#5 0x8001#16 1#5) := by decide

theorem test_decode_system :
    decoded 0b000000_00001_00010_00011_10101_001100#32 = some .syscall ∧
    decoded 0b000000_00001_00010_00011_10101_001101#32 = some .brk ∧
    decoded 0b010001_00000_00010_00011_01010101010#32 = some (.mfc1 2#5 3#5) ∧
    decoded 0b010001_00100_00010_00011_01010101010#32 = some (.mtc1 2#5 3#5) := by decide

/-- One word for each hole of the maps (R320): primary 0x3f and 0x10, SPECIAL 0x3f and 0x01, REGIMM 0x02,
COP1 fmt 0x10 (`add.s`); bytes that are no word. -/
theorem test_illegal_words :
    rejectOf (decode 0xffffffff#32) = some (.primary 0x3f#6) ∧ rejectOf (decode 0x40026000#32) = some (.primary 0x10#6) ∧
    rejectOf (decode 0x0000003f#32) = some (.special 0x3f#6) ∧ rejectOf (decode 0x00000001#32) = some (.special 0x01#6) ∧
    rejectOf (decode 0x04020000#32) = some (.regimm 0x02#5) ∧ rejectOf (decode 0x46000000#32) = some (.cop1 0x10#5) ∧
    rejectOf (decodeBytes [0x20#8, 0x01#8, 0x00#8]) = some .notFourBytes ∧
    instrOf (decodeBytes [0x20#8, 0x01#8, 0x00#8, 0x05#8]) = some (.addi 1#5 0#5 5#16) := by decide

/-- The words of the spec's own programs S1, S2, S4, S6, S7 (95_test_vectors.md), as the encoder writes them. -/
theorem test_encode_of_the_programs :
    encode (.addi 1#5 0#5 5#16) = 0x20010005#32 ∧ encode (.add 3#5 1#5 2#5) = 0x00221820#32 ∧
    encode (.lw 1#5 0#16 2#5) = 0x8c410000#32 ∧ encode (.beq 0#5 0#5 2#16) = 0x10000002#32 ∧
    encode (.mult 5#5 6#5) = 0x00a60018#32 ∧ encode (.mflo 7#5) = 0x00003812#32 ∧
    encode (.sw 1#5 0x100#16 0#5) = 0xac010100#32 ∧ encode .syscall = 0x0000000c#32 := by decide

theorem test_table_word : decodeTableWord 32 0x20010005 = some (.addi 1#5 0#5 5#16) := by decide

/-! ### Well-formedness: each check refuses an ill-formed term -/

theorem test_wellFormed_refuses_sll_32 : (Instr.sll 3#5 2#5 32).wellFormed = false := by decide
theorem test_wellFormed_refuses_srl_32 : (Instr.srl 3#5 2#5 32).wellFormed = false := by decide
theorem test_wellFormed_refuses_sra_32 : (Instr.sra 3#5 2#5 32).wellFormed = false := by decide
theorem test_delaySlotOk_refuses :
    (Instr.j 0#26).delaySlotOk .trap = false ∧ Instr.syscall.delaySlotOk .trap = false ∧
    Instr.brk.delaySlotOk .trap = false ∧ Instr.brk.delaySlotOk .illegal = true := by decide

/-! ### Assembly (R341, R342) -/

/-- R342's `li` with 0x00400018 and -1, `beqz` at 0x00400000 to 0x0040000c. -/
theorem test_pseudo :
    Pseudo.expand 0x00400000#32 (.li 4#5 0x00400018#32) = [.lui 4#5 0x0040#16, .ori 4#5 4#5 0x0018#16] ∧
    Pseudo.expand 0x00400000#32 (.li 4#5 0xffffffff#32) = [.addiu 4#5 0#5 0xffff#16] ∧
    Pseudo.expand 0x00400000#32 (.beqz 4#5 0x0040000c#32) = [.beq 4#5 0#5 2#16] ∧
    registerName 31#5 = "ra" := by decide

/-- The source's own spellings (R340). -/
theorem test_asmText :
    asmText (.addi 1#5 0#5 5#16) = "addi r1, r0, 5" ∧ asmText (.add 3#5 1#5 2#5) = "add r3, r1, r2" ∧
    asmText (.lw 1#5 0#16 2#5) = "lw r1, 0(r2)" := by decide

/-! ### One instruction -/

/-- Registers as given, the instruction waiting at 0x00400000, memory as in the examples of
44_loadstore.md: 0x11 to 0x88 at 0x1000 to 0x1007. -/
def start (regs : List (RegIx × Word)) : State :=
  { State.reset with
    gpr := RegFile.zero.writeAll regs
    byp := RegFile.zero.writeAll regs
    ifid := { valid := true, ins := 0#32, insPC := 0x00400000#32, ffault := none }
    pc := 0x00400004#32
    mem := { cells := [(0x1000, 0x11#8), (0x1001, 0x22#8), (0x1002, 0x33#8), (0x1003, 0x44#8), (0x1004, 0x55#8),
      (0x1005, 0x66#8), (0x1006, 0x77#8), (0x1007, 0x88#8)] } }

/-- A property of the next state, if there is one. -/
def follows (o : Host.Outcome State Fault Refusal) (p : State → Bool) : Bool :=
  match o with
  | .next t => p t
  | .fault _ | .refused _ => false

/-- What register `r` holds after an instruction. -/
def gprAfter (i : Instr) (s : State) (r : RegIx) : Option Word :=
  match exec i s with
  | .next t => some (t.gpr.read r)
  | .fault _ | .refused _ => none

/-- What the Hi/Lo pair holds after an instruction. -/
def hiloAfter (i : Instr) (s : State) : Option (Word × Word) :=
  match exec i s with
  | .next t => some (t.hi, t.lo)
  | .fault _ | .refused _ => none

/-- The outcome of a control transfer, and where fetch goes. -/
def branchAfter (i : Instr) (s : State) : Option (Bool × Word) :=
  match exec i s with
  | .next t => some (t.lastBtaken, t.pc)
  | .fault _ | .refused _ => none

/-- The four bytes at an address after an instruction. -/
def wordAfter (i : Instr) (s : State) (a : Word) : Option Word :=
  match exec i s with
  | .next t => some (t.mem.read32 a)
  | .fault _ | .refused _ => none

/-! The examples of the rules, R510 to R573. -/

theorem test_add : gprAfter (.add 3#5 1#5 2#5) (start [(1#5, 0x7fffffff#32), (2#5, 1#32)]) 3#5 = some 0x80000000#32 := by decide
theorem test_addu : gprAfter (.addu 3#5 1#5 2#5) (start [(1#5, 0xffffffff#32), (2#5, 2#32)]) 3#5 = some 1#32 := by decide
theorem test_sub : gprAfter (.sub 3#5 1#5 2#5) (start [(1#5, 0x80000000#32), (2#5, 1#32)]) 3#5 = some 0x7fffffff#32 := by decide
theorem test_subu : gprAfter (.subu 3#5 1#5 2#5) (start [(1#5, 0#32), (2#5, 1#32)]) 3#5 = some 0xffffffff#32 := by decide
theorem test_and : gprAfter (.and 3#5 1#5 2#5) (start [(1#5, 0xf0f0f0f0#32), (2#5, 0x0ff00ff0#32)]) 3#5 = some 0x00f000f0#32 := by decide
theorem test_or : gprAfter (.or 3#5 1#5 2#5) (start [(1#5, 0xf0f0f0f0#32), (2#5, 0x0ff00ff0#32)]) 3#5 = some 0xfff0fff0#32 := by decide
theorem test_xor : gprAfter (.xor 3#5 1#5 2#5) (start [(1#5, 0xf0f0f0f0#32), (2#5, 0x0ff00ff0#32)]) 3#5 = some 0xff00ff00#32 := by decide
theorem test_nor : gprAfter (.nor 3#5 1#5 2#5) (start [(1#5, 0xf0f0f0f0#32), (2#5, 0x0ff00ff0#32)]) 3#5 = some 0x000f000f#32 := by decide
theorem test_slt : gprAfter (.slt 3#5 1#5 2#5) (start [(1#5, 0xffffffff#32), (2#5, 1#32)]) 3#5 = some 1#32 := by decide
theorem test_sltu : gprAfter (.sltu 3#5 1#5 2#5) (start [(1#5, 0xffffffff#32), (2#5, 1#32)]) 3#5 = some 0#32 := by decide
theorem test_sll : gprAfter (.sll 3#5 2#5 31) (start [(2#5, 1#32)]) 3#5 = some 0x80000000#32 := by decide
theorem test_srl : gprAfter (.srl 3#5 2#5 31) (start [(2#5, 0x80000000#32)]) 3#5 = some 1#32 := by decide
theorem test_sra : gprAfter (.sra 3#5 2#5 4) (start [(2#5, 0x80000000#32)]) 3#5 = some 0xf8000000#32 := by decide
theorem test_sllv : gprAfter (.sllv 3#5 2#5 1#5) (start [(1#5, 33#32), (2#5, 3#32)]) 3#5 = some 6#32 := by decide
theorem test_srlv : gprAfter (.srlv 3#5 2#5 1#5) (start [(1#5, 36#32), (2#5, 0xf0000000#32)]) 3#5 = some 0x0f000000#32 := by decide
theorem test_srav : gprAfter (.srav 3#5 2#5 1#5) (start [(1#5, 4#32), (2#5, 0xf0000000#32)]) 3#5 = some 0xff000000#32 := by decide
theorem test_addi : gprAfter (.addi 2#5 1#5 0xfffe#16) (start [(1#5, 5#32)]) 2#5 = some 3#32 := by decide
theorem test_addiu : gprAfter (.addiu 2#5 1#5 5#16) (start [(1#5, 0xfffffffe#32)]) 2#5 = some 3#32 := by decide
theorem test_slti : gprAfter (.slti 2#5 1#5 0xfffc#16) (start [(1#5, 0xfffffffb#32)]) 2#5 = some 1#32 := by decide
theorem test_sltiu : gprAfter (.sltiu 2#5 1#5 0xffff#16) (start [(1#5, 5#32)]) 2#5 = some 1#32 := by decide
theorem test_andi : gprAfter (.andi 2#5 1#5 0x8001#16) (start [(1#5, 0xffffffff#32)]) 2#5 = some 0x00008001#32 := by decide
theorem test_ori : gprAfter (.ori 2#5 1#5 0x8765#16) (start [(1#5, 0x12340000#32)]) 2#5 = some 0x12348765#32 := by decide
theorem test_xori : gprAfter (.xori 2#5 1#5 0xff00#16) (start [(1#5, 0x0000ffff#32)]) 2#5 = some 0x000000ff#32 := by decide
theorem test_lui : gprAfter (.lui 2#5 0x8001#16) (start []) 2#5 = some 0x80010000#32 := by decide
theorem test_mult : hiloAfter (.mult 1#5 2#5) (start [(1#5, 0xffffffff#32), (2#5, 2#32)]) = some (0xffffffff#32, 0xfffffffe#32) := by decide
theorem test_mult_corner : hiloAfter (.mult 1#5 2#5) (start [(1#5, 0x80000000#32), (2#5, 0x80000000#32)]) = some (0x40000000#32, 0#32) := by decide
theorem test_multu : hiloAfter (.multu 1#5 2#5) (start [(1#5, 0xffffffff#32), (2#5, 0xffffffff#32)]) = some (0xfffffffe#32, 1#32) := by decide
theorem test_div : hiloAfter (.div 1#5 2#5) (start [(1#5, 0xfffffff9#32), (2#5, 2#32)]) = some (0xffffffff#32, 0xfffffffd#32) := by decide
theorem test_div_by_zero : hiloAfter (.div 1#5 2#5) (start [(1#5, 0xfffffff9#32), (2#5, 0#32)]) = some (0x7fffffff#32, 0x7fffffff#32) := by decide
theorem test_divu : hiloAfter (.divu 1#5 2#5) (start [(1#5, 0xfffffff9#32), (2#5, 2#32)]) = some (1#32, 0x7ffffffc#32) := by decide
theorem test_divu_by_zero : hiloAfter (.divu 1#5 2#5) (start [(1#5, 7#32), (2#5, 0#32)]) = some (0x7fffffff#32, 0x7fffffff#32) := by decide
theorem test_mfhi : gprAfter (.mfhi 2#5) { start [] with hi := 1#32, lo := 3#32 } 2#5 = some 1#32 := by decide
theorem test_mflo : gprAfter (.mflo 2#5) { start [] with hi := 1#32, lo := 3#32 } 2#5 = some 3#32 := by decide
theorem test_mthi : hiloAfter (.mthi 1#5) { start [(1#5, 0x12345678#32)] with lo := 3#32 } = some (0x12345678#32, 3#32) := by
  decide
theorem test_mtlo : hiloAfter (.mtlo 1#5) { start [(1#5, 0xcafef00d#32)] with hi := 1#32 } = some (1#32, 0xcafef00d#32) := by
  decide

/-! The examples of R610 to R623. -/

theorem test_beq :
    branchAfter (.beq 0#5 0#5 2#16) { start [] with ifid := { valid := true, ins := 0#32, insPC := 0x00400000#32, ffault := none } } = some (true, 0x0040000c#32) := by decide
theorem test_bne :
    branchAfter (.bne 1#5 2#5 0xfffc#16) { start [(1#5, 1#32), (2#5, 2#32)] with ifid := { valid := true, ins := 0#32, insPC := 0x00400020#32, ffault := none } } = some (true, 0x00400014#32) := by decide
theorem test_blez :
    branchAfter (.blez 1#5 2#16) { start [] with ifid := { valid := true, ins := 0#32, insPC := 0x00400000#32, ffault := none } } = some (true, 0x0040000c#32) := by decide
theorem test_bgtz :
    branchAfter (.bgtz 1#5 2#16) { start [] with ifid := { valid := true, ins := 0#32, insPC := 0x00400000#32, ffault := none } } = some (false, 0x00400004#32) := by decide
theorem test_bltz :
    branchAfter (.bltz 1#5 2#16) { start [(1#5, 0xffffffff#32)] with ifid := { valid := true, ins := 0#32, insPC := 0x00400000#32, ffault := none } } = some (true, 0x0040000c#32) := by decide
theorem test_bgez :
    branchAfter (.bgez 1#5 2#16) { start [] with ifid := { valid := true, ins := 0#32, insPC := 0x00400000#32, ffault := none } } = some (true, 0x0040000c#32) := by decide
theorem test_bltzal :
    branchAfter (.bltzal 1#5 2#16) { start [(1#5, 1#32)] with ifid := { valid := true, ins := 0#32, insPC := 0x00400100#32, ffault := none } } = some (false, 0x00400004#32) := by decide
theorem test_bgezal :
    branchAfter (.bgezal 0#5 0x10#16) { start [] with ifid := { valid := true, ins := 0#32, insPC := 0x00400100#32, ffault := none } } = some (true, 0x00400144#32) := by decide
theorem test_j :
    branchAfter (.j 0x0100008#26) { start [] with ifid := { valid := true, ins := 0#32, insPC := 0x00400010#32, ffault := none } } = some (true, 0x00400020#32) := by decide
theorem test_jal :
    branchAfter (.jal 0x0100010#26) { start [] with ifid := { valid := true, ins := 0#32, insPC := 0x00400000#32, ffault := none } } = some (true, 0x00400040#32) := by decide
theorem test_jr :
    branchAfter (.jr 8#5) { start [(8#5, 0x00400008#32)] with ifid := { valid := true, ins := 0#32, insPC := 0x00400000#32, ffault := none } } = some (true, 0x00400008#32) := by decide
theorem test_jalr :
    branchAfter (.jalr 31#5 8#5) { start [(8#5, 0x00400100#32)] with ifid := { valid := true, ins := 0#32, insPC := 0x00400020#32, ffault := none } } = some (true, 0x00400100#32) := by decide
theorem test_bltzal_links :
    gprAfter (.bltzal 1#5 2#16) { start [(1#5, 1#32)] with ifid := { valid := true, ins := 0#32, insPC := 0x00400100#32, ffault := none } } 31#5 = some 0x00400108#32 := by decide
theorem test_jalr_links :
    gprAfter (.jalr 31#5 8#5) { start [(8#5, 0x00400100#32)] with ifid := { valid := true, ins := 0#32, insPC := 0x00400020#32, ffault := none } } 31#5 = some 0x00400028#32 := by decide

/-! The examples of R660 to R675; the base register is r1 = 0x1000. -/

theorem test_lb : gprAfter (.lb 2#5 1#16 1#5) (start [(1#5, 0x1000#32)]) 2#5 = some 0x00000022#32 := by decide
theorem test_lb_sign : gprAfter (.lb 2#5 0xffff#16 1#5) { start [(1#5, 0x2001#32)] with mem := { cells := [(0x2000, 0x80#8)] } } 2#5 =
    some 0xffffff80#32 := by decide
theorem test_lbu : gprAfter (.lbu 2#5 7#16 1#5) (start [(1#5, 0x1000#32)]) 2#5 = some 0x00000088#32 := by decide
theorem test_lh : gprAfter (.lh 2#5 6#16 1#5) (start [(1#5, 0x1000#32)]) 2#5 = some 0x00007788#32 := by decide
theorem test_lhu : gprAfter (.lhu 2#5 2#16 1#5) (start [(1#5, 0x1000#32)]) 2#5 = some 0x00003344#32 := by decide
theorem test_lw : gprAfter (.lw 2#5 4#16 1#5) (start [(1#5, 0x1000#32)]) 2#5 = some 0x55667788#32 := by decide
theorem test_lwl : gprAfter (.lwl 2#5 1#16 1#5) (start [(1#5, 0x1000#32), (2#5, 0xaabbccdd#32)]) 2#5 = some 0x223344dd#32 := by decide
theorem test_lwr : gprAfter (.lwr 2#5 4#16 1#5) (start [(1#5, 0x1000#32), (2#5, 0x223344dd#32)]) 2#5 = some 0x22334455#32 := by decide
theorem test_lwc1 : follows (exec (.lwc1 2#5 0#16 1#5) (start [(1#5, 0x1000#32)])) (fun t => t.fpr.readF 2#5 = 0x11223344#32) = true := by
  decide
theorem test_sb : wordAfter (.sb 2#5 2#16 1#5) (start [(1#5, 0x1000#32), (2#5, 0xaabbccdd#32)]) 0x1000#32 = some 0x1122dd44#32 := by decide
theorem test_sh : wordAfter (.sh 2#5 2#16 1#5) (start [(1#5, 0x1000#32), (2#5, 0xaabbccdd#32)]) 0x1000#32 = some 0x1122ccdd#32 := by decide
theorem test_sw : wordAfter (.sw 2#5 4#16 1#5) (start [(1#5, 0x1000#32), (2#5, 0xaabbccdd#32)]) 0x1004#32 = some 0xaabbccdd#32 := by decide
theorem test_swl : wordAfter (.swl 2#5 1#16 1#5) (start [(1#5, 0x1000#32), (2#5, 0xaabbccdd#32)]) 0x1000#32 = some 0x11aabbcc#32 := by decide
theorem test_swr : wordAfter (.swr 2#5 4#16 1#5) (start [(1#5, 0x1000#32), (2#5, 0xaabbccdd#32)]) 0x1004#32 = some 0xdd667788#32 := by decide
theorem test_swc1 : wordAfter (.swc1 2#5 0#16 1#5) { start [(1#5, 0x1000#32)] with fpr := RegFile.zero.writeF 2#5 0x3f800000#32 } 0x1000#32 =
    some 0x3f800000#32 := by decide
theorem test_misaligned_before_unmapped :
    follows (exec (.lw 2#5 2#16 1#5) { start [(1#5, 0x1000#32)] with params := { mapped := [] } })
      (fun t => t.status = .faulted (.misaligned 0x1002#32)) = true := by decide

/-! The examples of R701 (as R700, with a scripted answer that exits), R711, R712, R562. -/

/-- An emulator's answer: r2 gets 99, `os` one byte. -/
def answer (leaves : Bool) : SysReply := { leaves := leaves, regs := [(2#5, 0x63#32)], bytes := [], os := { bytes := [1#8] } }

/-- The trap of S5: S = 0x00400000, the word behind it fetched and discarded. -/
theorem test_syscall :
    follows (exec .syscall { start [] with sysReplies := [answer false] }) (fun t =>
      t.gpr.read 2#5 = 0x63#32 ∧ t.byp.read 2#5 = 0x63#32 ∧ t.pc = 0x00400004#32 ∧ t.syscallStall = false ∧
        t.status = .running) = true := by decide
theorem test_syscall_exits :
    follows (exec .syscall { start [] with sysReplies := [answer true] }) (fun t => t.status = .exited) = true := by decide
theorem test_brk :
    follows (exec .brk { start [] with sysReplies := [answer false], params := { syscallResume := .replay } }) (fun t =>
      t.gpr.read 2#5 = 0x63#32 ∧ t.pc = 0x00400000#32) = true := by decide
theorem test_mfc1 :
    gprAfter (.mfc1 4#5 3#5) { start [] with fpr := RegFile.zero.writeF 3#5 0x3f800000#32 } 4#5 = some 0x3f800000#32 := by
  decide
theorem test_mtc1 : follows (exec (.mtc1 5#5 7#5) (start [(5#5, 0xdeadbeef#32)])) (fun t => t.fpr.readF 7#5 = 0xdeadbeef#32) = true := by
  decide
theorem test_div_overflow :
    follows (exec (.div 1#5 2#5) (start [(1#5, 0x80000000#32), (2#5, 0xffffffff#32)])) (fun t =>
      t.status = .faulted (.divOverflow 0x00400000#32)) = true := by decide

/-! ### Reset (R140) -/

theorem test_reset :
    State.reset.pc = 0x00400000#32 ∧ State.reset.status = .running ∧ State.reset.mem.wf = true ∧
    State.reset.ifid.valid = false ∧ State.reset.idex = .bubble ∧ State.reset.nfetched = 0 ∧
    (∀ i : RegIx, State.reset.gpr.read i = 0#32) := by decide

/-! ### One cycle -/

/-- Cycle 1 fetches the word at the entry point (R405, R902); memory lists nothing, so it is `nop`. -/
theorem test_first_cycle :
    follows (step State.reset) (fun t =>
      t.ifid = { valid := true, ins := 0#32, insPC := 0x00400000#32, ffault := none } ∧ t.pc = 0x00400004#32 ∧
        t.nfetched = 1) = true := by decide

/-- S4, cycle 3: `beq` in Execute redirects, the delay slot decodes, nothing is fetched. -/
theorem test_branch_cycle :
    follows (step { State.reset with
        idex := issueRecord (.instr (.beq 0#5 0#5 2#16)) (handlerOf {} (.beq 0#5 0#5 2#16))
          { valid := true, ins := 0x10000002#32, insPC := 0x00400000#32, ffault := none } .bubble .bubble State.reset
        ifid := { valid := true, ins := 0x20010001#32, insPC := 0x00400004#32, ffault := none }
        pc := 0x00400008#32, branchStall := true, bdPending := true, nfetched := 2 }) (fun t =>
      t.pc = 0x0040000c#32 ∧ t.ifid.valid = false ∧ t.idex.bd = true ∧ t.idex.insPC = 0x00400004#32 ∧ t.nfetched = 2) =
      true := by decide

/-- R453 and R457: a load in Memory does not overwrite a younger result in the bypass copy. -/
theorem test_stale_load_cycle :
    follows (step { start [] with
        ifid := .empty
        exmem := { Record.bubble with op := .instr (.lw 1#5 0#16 0#5), dst := .gpr 1#5, mem := some .lw, addr := 0x1000#32 }
        idex := { Record.bubble with op := .instr (.addi 1#5 0#5 7#16), ins := 0x20010007#32, dst := .gpr 1#5 } }) (fun t =>
      t.byp.read 1#5 = 7#32 ∧ t.memwb.loadVal = 0x11223344#32) = true := by decide

/-! ### For every statement, states and operands that meet its hypotheses -/

/-- The parts of `Record.tagsOk`, decided. -/
def tagChecks (r : Record) : Bool :=
  decide (r.isBubble = true → r = .bubble) &&
    decide (r.isSyscall = true ∨ r.isIllegal = true → r.dst = .none ∧ r.mem = none) &&
    decide (r.isStore = true → r.dst = .none)

theorem tagsOk_of_checks {r : Record} (h : tagChecks r = true) : r.tagsOk := by
  simp only [tagChecks, Bool.and_eq_true, decide_eq_true_eq] at h
  exact ⟨h.1.1, h.1.2, h.2⟩

/-- What a trap in a record asks of `pc` (`State.Inv.trapPC`). -/
def trapPCCheck (s : State) (r : Record) : Bool :=
  decide (s.params.fetchBudget = none → r.isSyscall = true → s.pc = r.insPC + 8#32)

/-- The parts of `State.Inv`, decided. -/
def invChecks (s : State) : Bool :=
  (s.mem.wf && decide (s.decoderStall ≤ 3) && tagChecks s.idex && tagChecks s.exmem && tagChecks s.memwb) &&
    (decide (∀ i : RegIx, s.byp.read i = s.newest.read i) &&
      decide (s.syscallStall = true ↔
        s.idex.isSyscall = true ∨ s.exmem.isSyscall = true ∨ s.memwb.isSyscall = true)) &&
    (decide (s.exmem.isSyscall = true → s.idex = .bubble ∧ s.ifid.valid = false) &&
      decide (s.memwb.isSyscall = true → s.idex = .bubble ∧ s.exmem = .bubble ∧ s.ifid.valid = false) &&
      decide (s.idex.isSyscall = true ∨ s.exmem.isSyscall = true ∨ s.memwb.isSyscall = true → s.decoderStall = 0)) &&
    (decide (s.branchStall = s.idex.isCT) && decide (s.idex.isCT = true → s.bdPending = true) &&
      decide (s.ifid.valid = true → s.bdPending = false → s.pc = s.ifid.insPC + 4#32)) &&
    (trapPCCheck s s.idex && trapPCCheck s s.exmem && trapPCCheck s s.memwb)

theorem inv_of_checks {s : State} (h : invChecks s = true) : s.Inv := by
  simp only [invChecks, trapPCCheck, Bool.and_eq_true, decide_eq_true_eq] at h
  obtain ⟨⟨⟨⟨⟨⟨⟨⟨h1, h2⟩, h3⟩, h4⟩, h5⟩, h6, h7⟩, ⟨h8, h9⟩, h10⟩, ⟨h11, h12⟩, h13⟩, ⟨h14, h15⟩, h16⟩ := h
  exact ⟨h1, h2, tagsOk_of_checks h3, tagsOk_of_checks h4, tagsOk_of_checks h5, fun _ => h6, fun _ => h7,
    fun _ => h8, fun _ => h9, fun _ => h10, fun _ => h11, fun _ => h12, fun _ => h13, by
      intro _ hb r hr ht
      rcases hr with rfl | rfl | rfl
      · exact h14 hb ht
      · exact h15 hb ht
      · exact h16 hb ht⟩

/-- The first `n` cycles leave the machine running. -/
theorem running_of_checks {s : State} {n : Nat}
    (h : (List.range (n + 1)).all (fun j => follows (stepN (j + 1) s) (fun t => t.status = .running)) = true) :
    ∀ j t, j ≤ n → stepN (j + 1) s = .next t → t.status = .running := by
  intro j t hj ht
  have := List.all_eq_true.1 h j (List.mem_range.2 (by omega))
  rw [ht] at this
  simpa [follows] using this

/-- Instruction `i` waits at 0x00400004 behind the record of `e`, which is in Execute next. -/
def behind (e i : Instr) (regs : List (RegIx × Word)) : State :=
  let s := start regs
  { s with
    idex := issueRecord (.instr e) (handlerOf s.params e)
      { valid := true, ins := encode e, insPC := 0x00400000#32, ffault := none } .bubble .bubble s
    ifid := { valid := true, ins := encode i, insPC := 0x00400004#32, ffault := none }
    pc := 0x00400008#32 }

/-- Instruction `i` waits and nothing is in flight. -/
def alone (i : Instr) (regs : List (RegIx × Word)) : State := (start regs).withFetchWord 32 (encode i).toNat

/-- A trap in Writeback at 0x00400000, drained; the emulator's answer is scripted. -/
def draining (leaves : Bool) : State :=
  { start [] with
    ifid := .empty
    pc := 0x00400008#32
    nfetched := 2
    syscallStall := true
    sysReplies := [answer leaves]
    memwb := issueRecord (.instr .syscall) (handlerOf {} .syscall)
      { valid := true, ins := 0x0000000c#32, insPC := 0x00400000#32, ffault := none } .bubble .bubble State.reset }

/-! Encoding -/

theorem witness_DecodeEncodeAgree :
    (Instr.sll 31#5 31#5 31).wellFormed = true ∧ decoded (encode (.sll 31#5 31#5 31)) = some (.sll 31#5 31#5 31) ∧
    (Instr.sra 0#5 0#5 0).wellFormed = true := by decide
theorem witness_IllegalEncodingsAreTheRest :
    decoded 0xffffffff#32 = none ∧ decoded 0x0000002b#32 = some (.sltu 0#5 0#5 0#5) := by decide
theorem witness_InstructionBytesAreBigEndian :
    ([] : List Byte).length ≠ 4 ∧ rejectOf (decodeBytes []) = some .notFourBytes := by decide
theorem witness_LabelsAreReached :
    branchReaches 0x00400000#32 0x00420000#32 = true ∧ branchReaches 0x00400000#32 0x003e0004#32 = true ∧
    branchReaches 0x00400000#32 0x00420004#32 = false ∧
    jumpReaches 0x0ffffffc#32 0x1ffffffc#32 = true ∧ jumpReaches 0x0ffffffc#32 0x0ffffffc#32 = false := by decide

/-! Results. `start` is running and in no delay slot; its memory is well formed and all mapped. -/

theorem witness_RegisterRegisterResults : (start [(1#5, 7#32)]).status = .running := by decide
theorem witness_ShiftResults : (start [(1#5, 33#32)]).status = .running := by decide
theorem witness_RegisterImmediateResults : (start [(1#5, 5#32)]).status = .running := by decide
theorem witness_MultiplyResults : (start [(1#5, 0x80000000#32)]).status = .running := by decide
theorem witness_SignedDivideResults_by_zero :
    (start [(1#5, 7#32)]).status = .running ∧ (start [(1#5, 7#32)]).byp.read 2#5 = 0#32 := by decide
theorem witness_SignedDivideResults_overflow :
    let s := start [(1#5, 0x80000000#32), (2#5, 0xffffffff#32)]
    s.status = .running ∧ s.byp.read 1#5 = 0x80000000#32 ∧ s.byp.read 2#5 = 0xffffffff#32 ∧
    s.params.divOverflow = .fault := by decide
theorem witness_SignedDivideResults_value :
    let s := { start [(1#5, 0x80000000#32), (2#5, 0xffffffff#32)] with params := { divOverflow := .value 1#32 2#32 } }
    s.status = .running ∧ s.byp.read 1#5 = 0x80000000#32 ∧ s.byp.read 2#5 = 0xffffffff#32 ∧
    s.params.divOverflow = .value 1#32 2#32 := by decide
theorem witness_SignedDivideResults_quotient :
    let s := start [(1#5, 0x80000000#32), (2#5, 1#32)]
    s.status = .running ∧ s.byp.read 2#5 ≠ 0#32 ∧
    ¬(s.byp.read 1#5 = 0x80000000#32 ∧ s.byp.read 2#5 = 0xffffffff#32) := by decide
theorem witness_UnsignedDivideResults :
    (start []).status = .running ∧ (start []).byp.read 2#5 = 0#32 ∧ (start [(2#5, 1#32)]).byp.read 2#5 ≠ 0#32 := by decide
theorem witness_HiLoMoveResults : (start [(1#5, 1#32)]).status = .running := by decide
theorem witness_BranchResults : (start []).status = .running ∧ (start []).bdPending = false := by decide
theorem witness_LinkingBranchResults :
    (start [(31#5, 1#32)]).status = .running ∧ (start [(31#5, 1#32)]).bdPending = false := by decide
theorem witness_JumpResults :
    (start [(8#5, 0x00400100#32)]).status = .running ∧ (start [(8#5, 0x00400100#32)]).bdPending = false := by decide
/-- Each alignment at the top of the address space, and a wrong one for the statement of the faults. -/
theorem witness_LoadResults :
    (start []).status = .running ∧ mapped (start []).params 0xfffffffc#32 = true ∧
    (0xffffffff#32).toNat % 1 = 0 ∧ (0xfffffffe#32).toNat % 2 = 0 ∧ (0xfffffffc#32).toNat % 4 = 0 := by decide
theorem witness_PartialLoadResults :
    (start []).status = .running ∧ mapped (start []).params 0xffffffff#32 = true := by decide
theorem witness_FloatLoadResult :
    (start []).status = .running ∧ (0x1000#32).toNat % 4 = 0 ∧ mapped (start []).params 0x1000#32 = true := by decide
theorem witness_StoreResults :
    (start []).status = .running ∧ (start []).mem.wf = true ∧ (0xffffffff#32).toNat % MemKind.sb.alignment = 0 ∧
    (0xfffffffe#32).toNat % MemKind.sh.alignment = 0 ∧ (0xfffffffc#32).toNat % MemKind.sw.alignment = 0 ∧
    (0xfffffffc#32).toNat % MemKind.swc1.alignment = 0 ∧ (0xfffffffd#32).toNat % MemKind.swl.alignment = 0 ∧
    (0xfffffffe#32).toNat % MemKind.swr.alignment = 0 ∧ mapped (start []).params 0xffffffff#32 = true := by decide
theorem witness_FloatMoveResults : (start [(5#5, 0xdeadbeef#32)]).status = .running := by decide

/-! Traps, faults and refusals -/

theorem witness_TrapResults :
    (start []).status = .running ∧ (start []).bdPending = false ∧ (start []).branchStall = false ∧
    (start []).budgetSpent = false ∧ Instr.syscall.isTrap (start []).params.breakMode = true ∧
    Instr.brk.isTrap (start []).params.breakMode = true := by decide
theorem witness_BreakCanBeIllegal :
    let s := { start [] with params := { breakMode := .illegal } }
    s.status = .running ∧ s.params.breakMode = .illegal := by decide
theorem witness_DelaySlotRefusals :
    let s := { start [] with bdPending := true }
    s.status = .running ∧ s.bdPending = true ∧ (Instr.jr 1#5).delaySlotOk s.params.breakMode = false ∧
    Instr.brk.delaySlotOk s.params.breakMode = false ∧ (Instr.mfhi 1#5).delaySlotOk s.params.breakMode = true := by decide
theorem witness_AccessFaults :
    let s := { start [(1#5, 0x1000#32)] with params := { mapped := [{ first := 0x200, stop := 0x201 }] } }
    (Instr.lw 2#5 7#16 1#5).memOperand = some (.lw, 1#5, 7#16) ∧ s.status = .running ∧
    (s.byp.read 1#5 + (7#16).signExtend 32).toNat % MemKind.lw.alignment ≠ 0 ∧
    (s.byp.read 1#5 + (8#16).signExtend 32).toNat % MemKind.lw.alignment = 0 ∧
    mapped s.params (s.byp.read 1#5 + (8#16).signExtend 32) = false ∧
    mapped s.params (s.byp.read 1#5 + (4#16).signExtend 32) = true := by decide

/-! Frames -/

theorem witness_RegisterFrame :
    follows (exec (.add 3#5 1#5 2#5) (start [])) (fun _ => true) = true ∧
    (Instr.add 3#5 1#5 2#5).isTrap (start []).params.breakMode = false ∧
    (Instr.add 3#5 1#5 2#5).gprDest ≠ some 4#5 ∧ (Instr.add 3#5 1#5 2#5).fprDest ≠ some 3#5 ∧
    (Instr.mtlo 3#5).hiloDest.1 = false ∧ (Instr.mthi 3#5).hiloDest.2 = false ∧
    (Instr.add 3#5 1#5 2#5).isControlTransfer = false := by decide
theorem witness_MemoryFrame :
    follows (exec (.swl 2#5 1#16 1#5) (start [(1#5, 0x1000#32)])) (fun _ => true) = true ∧
    (Instr.swl 2#5 1#16 1#5).isTrap (start []).params.breakMode = false ∧ (start []).mem.wf = true ∧
    (Instr.lwl 2#5 1#16 1#5).stores = false ∧ (Instr.swl 2#5 1#16 1#5).memOperand = some (.swl, 1#5, 1#16) ∧
    storedByte .swl 0x1001#32 7#32 0x1000#32 = none ∧ storedByte .swl 0x1001#32 7#32 0x1004#32 = none ∧
    storedByte .swl 0x1001#32 0x11223344#32 0x1003#32 = some 0x33#8 := by decide
theorem witness_RegisterZero :
    (31#5 : RegIx) ≠ 0#5 ∧ (31#5 : RegIx) ≠ 30#5 ∧ (RegFile.zero.write 31#5 7#32).read 31#5 = 7#32 := by decide

/-! Memory -/

theorem witness_AccessesAreDoublewordAccesses :
    (start []).mem.wf = true ∧ (0x1006#32).toNat % 2 = 0 ∧ (0x1004#32).toNat % 4 = 0 ∧
    (start []).mem.readDouble 0x1003#32 = 0x1122334455667788#64 := by decide
/-- R210's example: `sw` of 0x11223344 at 0x1000, then `lbu` at 0x1003 and `lhu` at 0x1002. -/
theorem witness_MixedWidthAccesses :
    follows (exec (.sw 2#5 0#16 1#5) (start [(1#5, 0x1000#32), (2#5, 0x11223344#32)])) (fun t =>
      t.status = .running ∧
      effectiveAddress (t.byp.read 1#5) 3#16 = effectiveAddress 0x1000#32 0#16 + BitVec.ofNat 32 3 ∧
      effectiveAddress (t.byp.read 1#5) 2#16 = effectiveAddress 0x1000#32 0#16 + BitVec.ofNat 32 (2 * 1) ∧
      follows (exec (.lbu 3#5 3#16 1#5) t) (fun u => u.status = .running ∧ u.gpr.read 3#5 = 0x44#32) = true ∧
      follows (exec (.lhu 3#5 2#16 1#5) t) (fun u => u.status = .running ∧ u.gpr.read 3#5 = 0x3344#32) = true) = true ∧
    (start []).mem.wf = true ∧ (3#5 : RegIx) ≠ 0#5 := by decide
theorem witness_PartialLoadPair :
    effectiveAddress ((start [(1#5, 0x1000#32)]).byp.read 1#5) 1#16 = 0x1001#32 ∧
    follows (exec (.lwl 2#5 1#16 1#5) (start [(1#5, 0x1000#32)])) (fun t =>
      t.status = .running ∧ effectiveAddress (t.byp.read 1#5) 4#16 = 0x1001#32 + 3#32 ∧
      follows (exec (.lwr 2#5 4#16 1#5) t) (fun u => u.status = .running ∧ u.gpr.read 2#5 = 0x22334455#32) = true) = true := by
  decide
/-- R675's example. -/
theorem witness_PartialStorePair :
    follows (exec (.swl 2#5 1#16 1#5) (start [(1#5, 0x1000#32), (2#5, 0xaabbccdd#32)])) (fun t =>
      t.status = .running ∧ effectiveAddress (t.byp.read 1#5) 4#16 = 0x1001#32 + 3#32 ∧
      follows (exec (.swr 2#5 4#16 1#5) t) (fun u => u.status = .running ∧ u.mem.read32 0x1000#32 = 0x11aabbcc#32 ∧
        u.mem.read32 0x1004#32 = 0xdd667788#32) = true) = true := by decide

/-! Hazards -/

/-- Each count: a Hi/Lo producer in Execute, Memory, Writeback, nowhere; the same for a store's data; a load
in Execute, and an ALU result there. -/
theorem witness_HazardCounts :
    let h : Record := { Record.bubble with op := .instr (.mthi 1#5), dst := .hilo true false }
    let g : Record := { Record.bubble with op := .instr (.addi 1#5 0#5 8#16), dst := .gpr 1#5 }
    let f : Record := { Record.bubble with op := .instr (.mtc1 1#5 1#5), dst := .fpr 1#5 }
    let l : Record := { Record.bubble with op := .instr (.lw 1#5 0#16 0#5), dst := .gpr 1#5, mem := some .lw }
    let b := Record.bubble
    let n (i : Instr) := hazard (handlerOf {} i)
    n (.mflo 7#5) h b b = 4 ∧ n (.mflo 7#5) b h b = 3 ∧ n (.mfhi 7#5) b b h = 2 ∧ n (.mfhi 7#5) g f l = 0 ∧
    (Instr.swc1 1#5 0#16 2#5).stores = true ∧ n (.sw 1#5 0#16 2#5) g b b = 4 ∧ n (.sw 2#5 0#16 1#5) b g b = 3 ∧
    n (.swc1 1#5 0#16 2#5) b b f = 2 ∧ n (.swc1 1#5 0#16 2#5) g g g = 0 ∧
    (Instr.add 3#5 1#5 1#5).stores = false ∧ l.isLoad = true ∧ n (.add 3#5 1#5 1#5) l b b = 2 ∧
    n (.add 3#5 1#5 1#5) g l l = 0 := by decide
theorem witness_SourcesAndDestinations :
    ({} : Params).breakMode = .trap ∧ ({ breakMode := .illegal } : Params).breakMode = .illegal := by decide
/-- S2, a stall of 2, and S6, a stall of 4. -/
theorem witness_StallsAreExact :
    (∀ p ∈ [(Instr.lw 1#5 0#16 2#5, Instr.add 3#5 1#5 1#5, 2), (.mult 5#5 6#5, .mflo 7#5, 4)],
      let s := behind p.1 p.2.1 [(2#5, 0x1000#32)]
      s.Inv ∧ s.waiting p.2.1 ∧ s.decoderStall = 0 ∧ s.syscallStall = false ∧ s.status = .running ∧
      p.2.2 = hazard (handlerOf s.params p.2.1) (exStepRecord s.params s.idex) (memOut s) s.memwb ∧
      ∀ j t, j ≤ p.2.2 → stepN (j + 1) s = .next t → t.status = .running) := by
  intro p hp
  simp only [List.mem_cons, List.not_mem_nil, or_false] at hp
  rcases hp with rfl | rfl
  · exact ⟨inv_of_checks (by decide), ⟨by decide, by decide, rfl⟩, by decide, by decide, by decide, by decide,
      running_of_checks (by decide)⟩
  · exact ⟨inv_of_checks (by decide), ⟨by decide, by decide, rfl⟩, by decide, by decide, by decide, by decide,
      running_of_checks (by decide)⟩
theorem witness_LoadUseStallsTwo :
    let i : Instr := .add 3#5 1#5 1#5
    let s := behind (.lw 1#5 0#16 2#5) i [(2#5, 0x1000#32)]
    s.Inv ∧ s.waiting i ∧ (∀ m t, m ≤ 2 → stepN (m + 1) s = .next t → t.status = .running) ∧
    s.decoderStall = 0 ∧ s.syscallStall = false ∧ s.status = .running ∧ s.idex.isLoad = true ∧
    s.idex.dst = .gpr 1#5 ∧ (1#5 : RegIx) ≠ 0#5 ∧ Src.g 1#5 ∈ (handlerOf s.params i).sources ∧ i.stores = false :=
  ⟨inv_of_checks (by decide), ⟨by decide, by decide, rfl⟩, running_of_checks (by decide), by decide⟩
theorem witness_InterlocksCoverHiLoAndStores :
    follows (step (alone (.mfhi 7#5) [])) (fun t => t.status = .running ∧ t.idex.op = .instr (.mfhi 7#5)) = true ∧
    follows (step (alone (.sw 1#5 0#16 0#5) [])) (fun t => t.status = .running ∧ t.idex.op = .instr (.sw 1#5 0#16 0#5)) = true ∧
    (Instr.sw 1#5 0#16 0#5).stores = true := by decide
/-- S1, cycle 4: `add` behind an `addi` that is in Execute. -/
theorem witness_OperandsAreNewest :
    (behind (.addi 2#5 0#5 7#16) (.add 3#5 1#5 2#5) [(1#5, 5#32)]).Inv ∧
    follows (step (behind (.addi 2#5 0#5 7#16) (.add 3#5 1#5 2#5) [(1#5, 5#32)])) (fun t =>
      t.status = .running ∧ t.idex.op = .instr (.add 3#5 1#5 2#5) ∧ t.idex.vrs = 5#32 ∧ t.idex.vrt = 7#32) = true :=
  ⟨inv_of_checks (by decide), by decide⟩
/-- In the window under `stale`, and outside it under `draw`. -/
theorem witness_FprReadsAreStale :
    follows (step (behind (.mtc1 1#5 3#5) (.mfc1 4#5 3#5) [(1#5, 9#32)])) (fun t =>
      t.status = .running ∧ t.idex.op = .instr (.mfc1 4#5 3#5) ∧ t.params.fprHazard = .stale ∧ t.idex.vf = 0#32) = true ∧
    follows (step { alone (.mfc1 4#5 3#5) [] with params := { fprHazard := .draw } }) (fun t =>
      t.status = .running ∧ t.idex.op = .instr (.mfc1 4#5 3#5) ∧ t.exmem.dst ≠ .fpr 3#5 ∧ t.memwb.dst ≠ .fpr 3#5) = true := by
  decide

/-! The cycle -/

theorem witness_StepIssuesTheDecodedInstruction :
    (alone (.add 3#5 1#5 2#5) []).quiescent ∧ (alone (.add 3#5 1#5 2#5) []).waiting (.add 3#5 1#5 2#5) :=
  ⟨by unfold State.quiescent; decide, by decide, by decide, rfl⟩
theorem witness_PipelineRunsExec :
    (alone (.sw 2#5 0#16 1#5) []).quiescent ∧ (alone (.sw 2#5 0#16 1#5) []).waiting (.sw 2#5 0#16 1#5) ∧
    follows (exec (.sw 2#5 0#16 1#5) (alone (.sw 2#5 0#16 1#5) [])) (fun _ => true) = true :=
  ⟨by unfold State.quiescent; decide, ⟨by decide, by decide, rfl⟩, by decide⟩
/-- The three cases of a fetch: a misaligned `pc`, an unmapped one, a word. -/
theorem witness_FetchResults :
    State.reset.quiescent ∧ State.reset.ifid.valid = false ∧ State.reset.budgetSpent = false ∧
    { State.reset with pc := 0x00400002#32 }.pc.toNat % 4 ≠ 0 ∧ mapped { mapped := [] } State.reset.pc = false ∧
    mapped State.reset.params State.reset.pc = true := by unfold State.quiescent; decide
theorem witness_FetchFaultsAreTaken :
    let s := { start [] with
      ifid := { valid := true, ins := 0#32, insPC := 2#32, ffault := some (.misaligned 2#32) } }
    s.quiescent ∧ s.ifid.valid = true ∧ s.ifid.ffault = some (.misaligned 2#32) := by unfold State.quiescent; decide
theorem witness_IllegalWordsHalt :
    let s := { start [] with ifid := { valid := true, ins := 0xffffffff#32, insPC := 0x00400000#32, ffault := none } }
    s.quiescent ∧ s.ifid.valid = true ∧ s.ifid.ffault = none ∧
    rejectOf (decode s.ifid.ins) = some (.primary 0x3f#6) := by unfold State.quiescent; decide
theorem witness_WritebackEndsTheRun :
    let r : Record := { Record.bubble with op := .illegal, isIllegal := true }
    { start [] with memwb := r }.status = .running ∧ r.exc = none ∧ r.isBubble = false ∧ r.isIllegal = true ∧
    (r.refuse .delaySlotControl).exc = some (.refuse .delaySlotControl) ∧
    (r.raise (.misaligned 2#32)).exc = some (.fault (.misaligned 2#32)) := by decide
theorem witness_TerminalStatesStop : { start [] with status := .stopped }.status ≠ .running := by decide
/-- A commit of each class, and a trap, in Writeback. -/
theorem witness_OnlyWritebackCommits :
    follows (step { start [] with memwb := { Record.bubble with op := .instr (.mthi 1#5), dst := .hilo true false, resHi := 7#32 } })
      (fun t => t.hi = 7#32 ∧ t.lo = 0#32) = true ∧
    follows (step { start [] with memwb := { Record.bubble with op := .instr (.mtc1 1#5 0#5), dst := .fpr 0#5, resLo := 7#32 } })
      (fun t => t.fpr.readF 0#5 = 7#32 ∧ t.gpr.read 1#5 = 0#32) = true ∧
    follows (step (draining false)) (fun t => t.gpr.read 2#5 = 0x63#32) = true ∧
    (draining false).memwb.isSyscall = true ∧ (start []).memwb.isSyscall = false := by decide
theorem witness_OnlyTheMemoryStageStores :
    let s := { start [] with exmem :=
      { Record.bubble with op := .instr (.sb 2#5 0#16 1#5), mem := some .sb, addr := 0x1000#32, vrt := 0xdd#32 } }
    s.mem.wf = true ∧ s.memwb.isSyscall = false ∧ s.exmem.isStore = true ∧ s.exmem.mem = some .sb ∧
    (start []).exmem.isStore = false ∧
    follows (step s) (fun t => t.mem.read 0x1000#32 = 0xdd#8 ∧ t.mem.read 0x1001#32 = 0x22#8) = true := by decide
theorem witness_OnlyFetchAdvancesThePC :
    follows (step (alone (.add 3#5 1#5 2#5) [])) (fun _ => true) = true ∧
    (alone (.add 3#5 1#5 2#5) []).memwb.isSyscall = false ∧ (alone (.add 3#5 1#5 2#5) []).idex.isCT = false ∧
    (exStepRecord {} (behind (.bgtz 0#5 2#16) .syscall []).idex).btaken = false := by decide
/-- A taken and a not taken branch in Execute, the gate closed. -/
theorem witness_BranchesRedirectBehindTheGate :
    (∀ i ∈ [Instr.beq 0#5 0#5 2#16, .bgtz 0#5 2#16],
      let s := { behind i (.addi 1#5 0#5 1#16) [] with branchStall := true, bdPending := true }
      s.Inv ∧ s.idex.isCT = true ∧ s.idex.exc = none ∧ s.idex.isSyscall = false ∧ s.idex.isIllegal = false ∧
      (exStepRecord s.params s.idex).exc = none ∧ s.memwb.isSyscall = false ∧
      follows (step s) (fun t => t.status = .running) = true) := by
  intro i hi
  simp only [List.mem_cons, List.not_mem_nil, or_false] at hi
  rcases hi with rfl | rfl
  · exact ⟨inv_of_checks (by decide), by decide⟩
  · exact ⟨inv_of_checks (by decide), by decide⟩
theorem witness_DelaySlotBeforeTheTarget :
    let i : Instr := .beq 0#5 0#5 2#16
    (alone i []).quiescent ∧ (alone i []).waiting i ∧ i.isControlTransfer = true ∧ (alone i []).bdPending = false ∧
    (alone i []).params.fetchBudget = none ∧ (alone i []).pc = (alone i []).ifid.insPC + 4#32 :=
  ⟨by unfold State.quiescent; decide, ⟨by decide, by decide, rfl⟩, by decide⟩
theorem witness_FetchSeesTheStores :
    follows (step State.reset) (fun t => t.status = .running ∧ t.ifid.valid = true ∧ t.ifid.ffault = none) = true := by
  decide
theorem witness_TrapStepInThePipeline :
    (draining false).Inv ∧ (draining false).status = .running ∧ (draining false).memwb.isSyscall = true ∧
    (draining false).memwb.exc = none ∧ (draining false).memwb.isIllegal = false ∧
    (draining false).params.fetchBudget = none ∧ ((draining false).sysReply (draining false).memwb).leaves = false ∧
    follows (step (draining false)) (fun t => t.pc = 0x00400008#32 ∧ t.ifid.insPC = 0x00400004#32 ∧ t.nfetched = 2) = true :=
  ⟨inv_of_checks (by decide), by decide⟩
theorem witness_BudgetStopsTheRun :
    let s := { State.reset with params := { fetchBudget := some 0 } }
    (wbState s.memwb s).status = .running ∧ follows (step s) (fun t => t.status = .stopped) = true ∧
    follows (step State.reset) (fun t => t.status = .running) = true := by decide
theorem witness_ParametersAreConstant :
    follows (step State.reset) (fun _ => true) = true ∧ follows (exec .syscall { start [] with sysReplies := [answer false] }) (fun _ => true) = true := by
  decide

/-! Launch and invariant -/

theorem witness_LaunchState : (31#5 : RegIx) ≠ 0#5 ∧ (State.launch Launch.chosen).pc = 0x00400000#32 := by decide
theorem witness_LaunchRunsTheEntryInstruction :
    let l := Launch.chosen
    l.params.fetchBudget = none ∧ l.entryPC.toNat % 4 = 0 ∧ mapped l.params l.entryPC = true ∧
    decoded (l.mem.read32 l.entryPC) = some (.sll 0#5 0#5 0) := by decide
theorem witness_InvariantAtLaunch : Launch.chosen.mem.wf = true := by decide
theorem witness_StepsKeepTheInvariant :
    (behind (.lw 1#5 0#16 2#5) (.add 3#5 1#5 1#5) [(2#5, 0x1000#32)]).Inv ∧
    follows (step (behind (.lw 1#5 0#16 2#5) (.add 3#5 1#5 1#5) [(2#5, 0x1000#32)])) (fun t => t.decoderStall = 1) = true :=
  ⟨inv_of_checks (by decide), by decide⟩
theorem witness_EmptyPipelineBypass :
    (start [(1#5, 7#32)]).Inv ∧ (start [(1#5, 7#32)]).status = .running ∧ (start [(1#5, 7#32)]).pipelineEmpty = true :=
  ⟨inv_of_checks (by decide), by decide⟩
theorem witness_PlacedWordIsIssued :
    State.reset.status = .running ∧ State.reset.mem.wf = true ∧ decoded 0x20010005#32 = some (.addi 1#5 0#5 5#16) ∧
    follows (step (State.reset.withFetchWord 32 0x20010005)) (fun u => u.idex.op = .instr (.addi 1#5 0#5 5#16)) = true := by decide

end Sys2Proof.Tests
end

/-! PROOFS, family 00_scope: the parameters are constant (O54), four cycles of the pipeline do what `exec`
does (O40), and what an instruction leaves unchanged outside memory (O25). -/

namespace Sys2Proof.Machine

/-! ### The part of the state that PipelineRunsExec compares

The pipeline and `exec` differ in what is fetched, in the gates and in the bypass copy; every stage keeps
or maps the rest of the state alike. -/

/-- Two states agree on what Writeback can commit to, on the status and on the parameters. -/
structure SameArch (a b : State) : Prop where
  gpr : a.gpr = b.gpr
  fpr : a.fpr = b.fpr
  hi : a.hi = b.hi
  lo : a.lo = b.lo
  mem : a.mem = b.mem
  os : a.os = b.os
  status : a.status = b.status
  sysReplies : a.sysReplies = b.sysReplies
  params : a.params = b.params

theorem SameArch.trans {a b c : State} (h : SameArch a b) (h' : SameArch b c) : SameArch a c where
  gpr := h.gpr.trans h'.gpr
  fpr := h.fpr.trans h'.fpr
  hi := h.hi.trans h'.hi
  lo := h.lo.trans h'.lo
  mem := h.mem.trans h'.mem
  os := h.os.trans h'.os
  status := h.status.trans h'.status
  sysReplies := h.sysReplies.trans h'.sysReplies
  params := h.params.trans h'.params

theorem SameArch.symm {a b : State} (h : SameArch a b) : SameArch b a where
  gpr := h.gpr.symm
  fpr := h.fpr.symm
  hi := h.hi.symm
  lo := h.lo.symm
  mem := h.mem.symm
  os := h.os.symm
  status := h.status.symm
  sysReplies := h.sysReplies.symm
  params := h.params.symm

/-- Decode, with the discarded fetch behind a trap, changes nothing that Writeback can commit to. -/
theorem flowIssueState_sameArch (i : Instr) (h : Handler) (s : State) : SameArch (flowIssueState i h s) s := by
  unfold flowIssueState trapFetch
  split <;> constructor <;> simp

/-- Nor does Execute (R440). -/
theorem flowExecuteState_sameArch (i : Instr) (h : Handler) (s : State) : SameArch (flowExecuteState i h s) s :=
  have execute : SameArch (flowExecuteState i h s) (flowIssueState i h s) := by
    unfold flowExecuteState
    constructor <;> simp
  execute.trans (flowIssueState_sameArch i h s)

theorem exStepState_sameArch (e : Record) (s : State) : SameArch (exStepState e s) s := by
  unfold exStepState
  constructor <;> simp

/-- Memory reads of the state only the memory and the parameters (R450). -/
theorem memRecord_congr {a b : State} (h : SameArch a b) (m : Record) : memRecord m a = memRecord m b := by
  unfold memRecord
  rw [h.mem, h.params]

/-- The memory after the Memory stage, whatever the destination of a load (R450, R653). -/
theorem memState_mem (m : Record) (s : State) :
    (memState m s).mem =
      match m.mem with
      | none => s.mem
      | some k =>
        if m.exc.isSome || (accessFault s.params k m.addr).isSome || k.isLoad then s.mem
        else storeMem k s.mem m.addr m.vrt m.vf := by
  unfold memState
  cases hm : m.mem with
  | none => rfl
  | some k =>
    dsimp only
    cases hx : m.exc.isSome || (accessFault s.params k m.addr).isSome
    · cases hk : k.isLoad
      · simp [memAccess, hk]
      · simp only [memAccess, hk]
        cases hd : m.dst <;> simp
    · simp

theorem memState_congr {a b : State} (h : SameArch a b) (m : Record) : SameArch (memState m a) (memState m b) where
  gpr := by simp [h.gpr]
  fpr := by simp [h.fpr]
  hi := by simp [h.hi]
  lo := by simp [h.lo]
  mem := by rw [memState_mem, memState_mem, h.mem, h.params]
  os := by simp [h.os]
  status := by simp [h.status]
  sysReplies := by simp [h.sysReplies]
  params := by simp [h.params]

theorem commit_congr {a b : State} (h : SameArch a b) (w : Record) : SameArch (commit w a) (commit w b) := by
  obtain ⟨hgpr, hfpr, hhi, hlo, hmem, hos, hstatus, hreplies, hparams⟩ := h
  unfold commit
  cases w.dst <;> constructor <;> simp [*]

/-- The emulator is asked the same and its answer is applied to the same (R810, R812). -/
theorem trap_congr {a b : State} (h : SameArch a b) (w : Record) : SameArch (a.trap w) (b.trap w) := by
  obtain ⟨hgpr, hfpr, hhi, hlo, hmem, hos, hstatus, hreplies, hparams⟩ := h
  have reply : a.sysReply w = b.sysReply w := by
    unfold State.sysReply
    rw [hgpr, hmem, hos, hreplies]
  unfold State.trap State.trapWith
  rw [reply]
  dsimp only
  split <;> constructor <;> simp [*]

/-- Writeback takes states that agree to states that agree (R470). -/
theorem wbState_congr {a b : State} (h : SameArch a b) (w : Record) : SameArch (wbState w a) (wbState w b) := by
  have ends (st : Status) : SameArch (a.setStatus st) (b.setStatus st) := { h with status := rfl }
  unfold wbState
  cases w.exc with
  | some x =>
    cases x with
    | fault f => exact ends _
    | refuse r => exact ends _
  | none =>
    dsimp only
    split
    · exact h
    · split
      · exact ends _
      · split
        · exact trap_congr h w
        · exact commit_congr h w

/-- An answer of `exec` is what Writeback leaves (R119). -/
theorem exec_next {i : Instr} {s t : State} (h : exec i s = .next t) :
    t = wbState (flowAccessed i (handlerOf s.params i) s) (flowMemoryState i (handlerOf s.params i) s) := by
  cases hr : s.status.isRunning with
  | false => rw [exec_ended hr] at h; cases h
  | true => rw [exec_running hr] at h; cases h; rfl

/-! ### One instruction alone, cycle by cycle -/

theorem isRunning_iff (st : Status) : st.isRunning = true ↔ st = .running := by
  cases st <;> simp [Status.isRunning]

/-- A cycle that goes on with an instruction still in flight does not stop the run (R485). -/
theorem goesOn_running {s : State} (h : (wbState s.memwb s).status.isRunning = true)
    (hp : (cycle s).pipelineEmpty = false) : (cycle s).status = .running := by
  unfold State.pipelineEmpty at hp
  rw [goesOn_idex h, goesOn_exmem h, goesOn_memwb h] at hp
  have within : ((afterFetch s).loadLatches (idOut s).record (exStepRecord s.params s.idex) (memOut s)).budgetCheck =
      (afterFetch s).loadLatches (idOut s).record (exStepRecord s.params s.idex) (memOut s) := by
    unfold State.budgetCheck
    simp_all
  rw [cycle_goes_on h, within]
  simpa [afterFetch, idOut, isRunning_iff] using h

theorem goesOn_of_bubble {s : State} (hs : s.status = .running) (hw : s.memwb = .bubble) :
    (wbState s.memwb s).status.isRunning = true := by
  rw [hw, wbState_bubble, hs]
  rfl

/-- What a cycle with a bubble in Writeback does: the instruction in Memory, if any, has its effect there,
and nothing commits; the latches move on. -/
theorem cycle_bubble_writeback {s : State} (hs : s.status = .running) (hw : s.memwb = .bubble)
    (hp : (cycle s).pipelineEmpty = false) : SameArch (cycle s) (memState s.exmem s) := by
  have hwb : wbState s.memwb s = s := by rw [hw]; rfl
  have hrun := goesOn_of_bubble hs hw
  exact {
    gpr := by simp [cycle_gpr, hwb]
    fpr := by simp [cycle_fpr, hwb]
    hi := by simp [cycle_hi, hwb]
    lo := by simp [cycle_lo, hwb]
    mem := by
      rw [cycle_mem, if_pos hrun, afterMemory, hwb, (memState_congr (exStepState_sameArch s.idex s) s.exmem).mem]
    os := by simp [cycle_os, hwb]
    status := by rw [goesOn_running hrun hp, memState_status, hs]
    sysReplies := by simp [cycle_sysReplies, hwb]
    params := by simp [cycle_params] }

theorem hazard_bubbles (h : Handler) : hazard h .bubble .bubble .bubble = 0 := by
  have noHit (x : Src) : Record.bubble.dst.hits x = false := by cases x <;> rfl
  have noHits (xs : List Src) : Record.bubble.dst.hitsAny xs = false := by simp [Dst.hitsAny, noHit]
  simp [hazard, loadUseHazard, hiloHazard, storeHazard, noHit, noHits]

theorem flowIssued_isBubble (p : Params) (i : Instr) (s : State) :
    (flowIssued i (handlerOf p i) s).isBubble = false :=
  (issueRecord_tags (.instr i) p (by simp) s.ifid .bubble .bubble s).2

/-- Decode issues the record it builds, or the same refused (R428). -/
theorem flowIssued_cases (i : Instr) (h : Handler) (s : State) :
    flowIssued i h s = (makeRecord (.instr i) h s.ifid .bubble .bubble s).refuse .delaySlotControl ∨
      flowIssued i h s = makeRecord (.instr i) h s.ifid .bubble .bubble s := by
  unfold flowIssued issueRecord
  dsimp only
  split
  · exact .inl rfl
  · exact .inr rfl

theorem flowIssued_op {i : Instr} {h : Handler} {s : State} (hi : (flowIssued i h s).isIllegal = false) :
    (flowIssued i h s).op = .instr i := by
  rcases flowIssued_cases i h s with he | he <;> rw [he] at hi ⊢ <;> simp_all [makeRecord, Record.refuse]

/-- Execute in the pipeline runs the handler that `exec` runs (R440). -/
theorem exStepRecord_flowIssued (p : Params) (i : Instr) (s : State) :
    exStepRecord p (flowIssued i (handlerOf p i) s) = flowExecuted i (handlerOf p i) s := by
  unfold exStepRecord flowExecuted exRecord
  split
  · rfl
  · next hk =>
    have legal : (flowIssued i (handlerOf p i) s).isIllegal = false := by
      simp_all [Record.skipsExecute]
    rw [flowIssued_op legal]
    rfl

theorem flowExecuted_isBubble (p : Params) (i : Instr) (s : State) :
    (flowExecuted i (handlerOf p i) s).isBubble = false := by
  rw [← exStepRecord_flowIssued]
  simpa [Record.isBubble] using flowIssued_isBubble p i s

theorem flowAccessed_isBubble (p : Params) (i : Instr) (s : State) :
    (flowAccessed i (handlerOf p i) s).isBubble = false := by
  simpa [Record.isBubble, flowAccessed] using flowExecuted_isBubble p i s

/-- Decode issues the waiting instruction, with the record that `exec` gives it (R410, R412). -/
theorem idOut_waiting {s : State} {i : Instr} (hq : s.quiescent) (hw : s.waiting i) :
    (idOut s).record = flowIssued i (handlerOf s.params i) s := by
  obtain ⟨-, hidex, hexmem, hmemwb, hstall, -, hss⟩ := hq
  obtain ⟨hvalid, hff, hdec⟩ := hw
  have hop : entryOp s.ifid.ins = .instr i := by simp [entryOp, hdec]
  have hmem : memOut s = .bubble := by simp [memOut, hexmem]
  have hex : exStepRecord s.params s.idex = .bubble := by rw [hidex]; rfl
  have ham : afterMemory s = s.clearWflag := by
    simp only [afterMemory, hexmem, hmemwb, hidex, wbState_bubble, memState_bubble]
    rfl
  have hcases := idOut_cases s
  rw [ham, hmem, hex, hmemwb] at hcases
  cases hcases with
  | idle h _ => simp_all
  | stalled _ h _ => simp_all
  | fault f _ _ _ h _ => simp_all
  | waits _ _ _ _ h _ => rw [hazard_bubbles] at h; simp at h
  | issue _ _ _ _ _ hr => rw [hr, hop]; rfl

/-- Cycle 1: the waiting instruction goes to Execute (R401, R405). -/
theorem cycle_issues {s : State} {i : Instr} (hq : s.quiescent) (hw : s.waiting i) :
    (cycle s).idex = flowIssued i (handlerOf s.params i) s ∧ (cycle s).exmem = .bubble ∧
      (cycle s).memwb = .bubble ∧ SameArch (cycle s) s := by
  have hissued := idOut_waiting hq hw
  obtain ⟨hs, hidex, hexmem, hmemwb, -⟩ := hq
  have hrun := goesOn_of_bubble hs hmemwb
  have idex : (cycle s).idex = flowIssued i (handlerOf s.params i) s := by rw [goesOn_idex hrun, hissued]
  have arch := cycle_bubble_writeback hs hmemwb (by simp [State.pipelineEmpty, idex, flowIssued_isBubble])
  rw [hexmem, memState_bubble] at arch
  refine ⟨idex, ?_, ?_, arch⟩
  · rw [goesOn_exmem hrun, hidex]
    rfl
  · rw [goesOn_memwb hrun, memOut, hexmem, memRecord_bubble]

section
variable {s x : State} {i : Instr} (hs : s.status = .running) (arch : SameArch x s)
include hs arch

/-- Cycle 2: the instruction in Execute goes to Memory. -/
theorem cycle_executes (hidex : x.idex = flowIssued i (handlerOf s.params i) s) (hexmem : x.exmem = .bubble)
    (hmemwb : x.memwb = .bubble) :
    (cycle x).exmem = flowExecuted i (handlerOf s.params i) s ∧ (cycle x).memwb = .bubble ∧
      SameArch (cycle x) s := by
  have hx := arch.status.trans hs
  have hrun := goesOn_of_bubble hx hmemwb
  have exmem : (cycle x).exmem = flowExecuted i (handlerOf s.params i) s := by
    rw [goesOn_exmem hrun, hidex, arch.params, exStepRecord_flowIssued]
  have arch' := cycle_bubble_writeback hx hmemwb (by simp [State.pipelineEmpty, exmem, flowExecuted_isBubble])
  rw [hexmem, memState_bubble] at arch'
  refine ⟨exmem, ?_, arch'.trans arch⟩
  rw [goesOn_memwb hrun, memOut, hexmem, memRecord_bubble]

/-- Cycle 3: the instruction in Memory has its effect there and goes to Writeback. What is in Execute by
then is a younger one, and changes nothing that is compared. -/
theorem cycle_accesses (hexmem : x.exmem = flowExecuted i (handlerOf s.params i) s) (hmemwb : x.memwb = .bubble) :
    (cycle x).memwb = flowAccessed i (handlerOf s.params i) s ∧
      SameArch (cycle x) (flowMemoryState i (handlerOf s.params i) s) := by
  have hx := arch.status.trans hs
  have archE := arch.trans (flowExecuteState_sameArch i (handlerOf s.params i) s).symm
  have memwb : (cycle x).memwb = flowAccessed i (handlerOf s.params i) s := by
    rw [goesOn_memwb (goesOn_of_bubble hx hmemwb), memOut, hmemwb, wbState_bubble, hexmem,
      memRecord_congr ((exStepState_sameArch x.idex x).trans archE), flowAccessed]
  have arch' := cycle_bubble_writeback hx hmemwb (by simp [State.pipelineEmpty, memwb, flowAccessed_isBubble])
  rw [hexmem] at arch'
  exact ⟨memwb, arch'.trans (memState_congr archE _)⟩

end

theorem stepN_succ {s : State} (hs : s.status = .running) (n : Nat) : stepN (n + 1) s = stepN n (cycle s) := by
  rw [stepN, step_running ((isRunning_iff _).2 hs)]

theorem stepN_succ_right {s u : State} {n : Nat} (h : stepN n s = .next u) : stepN (n + 1) s = step u := by
  induction n generalizing s with
  | zero =>
    cases h
    rw [stepN]
    cases step u <;> rfl
  | succ n ih =>
    rw [stepN] at h ⊢
    cases hs : step s with
    | next x => rw [hs] at h; exact ih h
    | fault f => rw [hs] at h; cases h
    | refused r => rw [hs] at h; cases h

/-- Three cycles bring a waiting instruction to Writeback: its record is the one `exec` commits, and the
state is the one `exec` commits it to, up to what the pipeline has fetched (R401, R402, R405). -/
theorem stepN_three_waiting {s : State} {i : Instr} (hq : s.quiescent) (hw : s.waiting i) :
    ∃ u, stepN 3 s = .next u ∧ u.memwb = flowAccessed i (handlerOf s.params i) s ∧
      SameArch u (flowMemoryState i (handlerOf s.params i) s) := by
  obtain ⟨idex₁, exmem₁, memwb₁, arch₁⟩ := cycle_issues hq hw
  obtain ⟨hs, -⟩ := hq
  obtain ⟨exmem₂, memwb₂, arch₂⟩ := cycle_executes hs arch₁ idex₁ exmem₁ memwb₁
  obtain ⟨memwb₃, arch₃⟩ := cycle_accesses hs arch₂ exmem₂ memwb₂
  refine ⟨cycle (cycle (cycle s)), ?_, memwb₃, arch₃⟩
  rw [stepN_succ hs, stepN_succ (arch₁.status.trans hs), stepN_succ (arch₂.status.trans hs), stepN]

/-! ### What the stages leave unchanged, outside memory -/

/-- Everything outside memory but the destination `d` is in `t` as in `s`; where `ct` is false, so are `pc`
and the last-branch fields. The write flags and the gates of Decode are left open. -/
structure Frame (d : Dst) (ct : Bool) (s t : State) : Prop where
  gpr : ∀ r, d ≠ .gpr r → t.gpr.read r = s.gpr.read r
  byp : ∀ r, d ≠ .gpr r → t.byp.read r = s.byp.read r
  fpr : ∀ r, d ≠ .fpr r → t.fpr.readF r = s.fpr.readF r
  hi : (∀ loEn, d ≠ .hilo true loEn) → t.hi = s.hi
  lo : (∀ hiEn, d ≠ .hilo hiEn true) → t.lo = s.lo
  branch : ct = false →
    t.pc = s.pc ∧ t.lastBtaken = s.lastBtaken ∧ t.lastBd = s.lastBd ∧ t.lastBtgt = s.lastBtgt
  os : t.os = s.os
  params : t.params = s.params
  sysReplies : t.sysReplies = s.sysReplies
  nfetched : t.nfetched = s.nfetched
  draws : t.draws = s.draws
  decoderStall : t.decoderStall = s.decoderStall
  syscallStall : t.syscallStall = s.syscallStall
  ifid : t.ifid = s.ifid
  idex : t.idex = s.idex
  exmem : t.exmem = s.exmem
  memwb : t.memwb = s.memwb

theorem Frame.trans {d : Dst} {ct : Bool} {s t u : State} (h : Frame d ct s t) (h' : Frame d ct t u) :
    Frame d ct s u where
  gpr r hr := (h'.gpr r hr).trans (h.gpr r hr)
  byp r hr := (h'.byp r hr).trans (h.byp r hr)
  fpr r hr := (h'.fpr r hr).trans (h.fpr r hr)
  hi hd := (h'.hi hd).trans (h.hi hd)
  lo hd := (h'.lo hd).trans (h.lo hd)
  branch hc := by
    obtain ⟨hpc, htaken, hbd, htgt⟩ := h.branch hc
    obtain ⟨hpc', htaken', hbd', htgt'⟩ := h'.branch hc
    exact ⟨hpc'.trans hpc, htaken'.trans htaken, hbd'.trans hbd, htgt'.trans htgt⟩
  os := h'.os.trans h.os
  params := h'.params.trans h.params
  sysReplies := h'.sysReplies.trans h.sysReplies
  nfetched := h'.nfetched.trans h.nfetched
  draws := h'.draws.trans h.draws
  decoderStall := h'.decoderStall.trans h.decoderStall
  syscallStall := h'.syscallStall.trans h.syscallStall
  ifid := h'.ifid.trans h.ifid
  idex := h'.idex.trans h.idex
  exmem := h'.exmem.trans h.exmem
  memwb := h'.memwb.trans h.memwb

/-- The frame of no effect at all is a frame of every instruction. -/
theorem Frame.of_none {s t : State} (h : Frame .none false s t) (d : Dst) (ct : Bool) : Frame d ct s t :=
  { h with
    gpr := fun r _ => h.gpr r nofun
    byp := fun r _ => h.byp r nofun
    fpr := fun r _ => h.fpr r nofun
    hi := fun _ => h.hi nofun
    lo := fun _ => h.lo nofun
    branch := fun _ => h.branch rfl }

theorem Frame.refl (d : Dst) (ct : Bool) (s : State) : Frame d ct s s := by
  constructor <;> simp

theorem clearWflag_frame (d : Dst) (ct : Bool) (s : State) : Frame d ct s s.clearWflag := by
  constructor <;> simp

theorem setStatus_frame (d : Dst) (ct : Bool) (s : State) (st : Status) : Frame d ct s (s.setStatus st) := by
  constructor <;> simp

/-- Decode of an instruction that is no trap (R412, R429). -/
theorem flowIssueState_frame {i : Instr} {h : Handler} {s : State} (hy : (flowIssued i h s).isSyscall = false)
    (d : Dst) (ct : Bool) : Frame d ct s (flowIssueState i h s) := by
  rw [flowIssueState_eq hy]
  constructor <;> simp

/-- A write to the bypass copy of the destination (R441, R456). -/
theorem earlyCommit_frame (i : RegIx) (ct : Bool) (s : State) (v : Word) :
    Frame (.gpr i) ct s (s.earlyCommit i v) := by
  constructor <;> simp +contextual [RegFile.read_write_other]

theorem deferredCommit_frame (i : RegIx) (ct : Bool) (s : State) (v : Word) :
    Frame (.gpr i) ct s (s.deferredCommit i v) := by
  unfold State.deferredCommit
  split
  · constructor <;> simp +contextual [RegFile.read_write_other]
  · exact .refl _ _ _

theorem exCommit_frame (e : Record) (ct : Bool) (s : State) : Frame e.dst ct s (exCommit e s) := by
  unfold exCommit
  split
  · next i hd =>
    rw [hd]
    split
    · exact .refl _ _ _
    · exact earlyCommit_frame i ct s e.resLo
  all_goals exact .refl _ _ _

/-- Only a control transfer moves `pc` and the last-branch fields (R443, R444). -/
theorem exBranch_frame (e : Record) (d : Dst) (s : State) : Frame d e.isCT s (exBranch e s) := by
  unfold exBranch
  split
  · next hct =>
    rw [hct]
    constructor <;> simp
  · exact .refl _ _ _

/-- Execute with a handler that keeps the tags of the record (R440, R442). -/
theorem exState_frame {op : Record → Record} {e : Record} (tags : SameTags e (op e)) (s : State) :
    Frame e.dst e.isCT s (exState op e s) := by
  have clear := clearWflag_frame e.dst e.isCT s
  by_cases hk : e.skipsExecute = true ∨ (op e).exc ≠ none
  · rw [exState_skip s hk]
    exact clear
  · simp only [not_or, Bool.not_eq_true, ne_eq, Decidable.not_not] at hk
    obtain ⟨hskip, hexc⟩ := hk
    have early := exCommit_frame (op e) e.isCT s.clearWflag
    have branch := exBranch_frame (op e) e.dst (exCommit (op e) s.clearWflag)
    rw [tags.dst] at early
    rw [tags.isCT] at branch
    rw [exState_ok s hskip hexc]
    exact (clear.trans early).trans branch

/-- Memory (R450): outside memory, a load writes the bypass copy of its destination. -/
theorem memState_frame (m : Record) (ct : Bool) (s : State) : Frame m.dst ct s (memState m s) := by
  have store (k : MemKind) : Frame m.dst ct s { s with mem := storeMem k s.mem m.addr m.vrt m.vf } := by
    constructor <;> simp
  unfold memState
  split
  · exact .refl _ _ _
  · next k _ =>
    split
    · exact .refl _ _ _
    · unfold memAccess
      split
      · split
        · next i hd =>
          rw [hd]
          exact deferredCommit_frame i ct s _
        all_goals exact .refl _ _ _
      · exact store k

/-- Writeback's commit writes the committed copy of the destination only (R470). -/
theorem commit_frame (w : Record) (ct : Bool) (s : State) : Frame w.dst ct s (commit w s) := by
  unfold commit
  cases w.dst with
  | gpr i => constructor <;> simp +contextual [RegFile.read_write_other]
  | fpr i => constructor <;> simp +contextual [RegFile.readF_writeF]
  | hilo hiEn loEn => cases hiEn <;> cases loEn <;> constructor <;> simp
  | none => exact .refl _ _ _

/-- Writeback of a record that is no trap ends the run, or does nothing, or commits (R470). -/
theorem wbState_frame {w : Record} (hy : w.isSyscall = false) (ct : Bool) (s : State) :
    Frame w.dst ct s (wbState w s) := by
  unfold wbState
  cases w.exc with
  | some x =>
    cases x with
    | fault f => exact setStatus_frame _ _ _ _
    | refuse r => exact setStatus_frame _ _ _ _
  | none =>
    dsimp only
    rw [hy]
    split
    · exact .refl _ _ _
    · split
      · exact setStatus_frame _ _ _ _
      · exact commit_frame w ct s

/-- The four stages leave everything outside memory but the destination that Decode put in the record. -/
theorem exec_frame_issued {i : Instr} {s t : State} (hrun : exec i s = .next t)
    (hy : (flowIssued i (handlerOf s.params i) s).isSyscall = false) :
    Frame (flowIssued i (handlerOf s.params i) s).dst (flowIssued i (handlerOf s.params i) s).isCT s t := by
  obtain rfl := exec_next hrun
  have executed : SameTags _ (flowExecuted i (handlerOf s.params i) s) :=
    exStepRecord_flowIssued s.params i s ▸ exStepRecord_tags s.params _
  have decode := flowIssueState_frame hy (flowIssued i (handlerOf s.params i) s).dst
    (flowIssued i (handlerOf s.params i) s).isCT
  have execute := exState_frame (handlerOf_tags s.params i (flowIssued i (handlerOf s.params i) s))
    (flowIssueState i (handlerOf s.params i) s)
  have memory := memState_frame (flowExecuted i (handlerOf s.params i) s)
    (flowIssued i (handlerOf s.params i) s).isCT (flowExecuteState i (handlerOf s.params i) s)
  have writeback := wbState_frame (w := flowAccessed i (handlerOf s.params i) s)
    (by rw [flowAccessed, memRecord_isSyscall, executed.isSyscall, hy])
    (flowIssued i (handlerOf s.params i) s).isCT (flowMemoryState i (handlerOf s.params i) s)
  rw [executed.dst] at memory
  rw [flowAccessed, memRecord_dst, executed.dst] at writeback
  exact (((decode.trans execute).trans (clearWflag_frame _ _ _)).trans memory).trans writeback

/-- What `exec` of an instruction that is no trap leaves unchanged, outside memory. -/
theorem exec_frame {i : Instr} {s t : State} (hrun : exec i s = .next t)
    (ht : i.isTrap s.params.breakMode = false) : Frame (instrDst i) i.isControlTransfer s t := by
  have hy := (handlerOf_isSyscall s.params i).trans ht
  have frame := exec_frame_issued hrun
  rcases flowIssued_cases i (handlerOf s.params i) s with he | he <;> rw [he] at frame
  · exact (frame rfl).of_none _ _
  · rw [← handlerOf_dst s.params i, ← handlerOf_isCT s.params i]
    exact frame hy

theorem instrDst_eq_gpr {i : Instr} {r : RegIx} (h : instrDst i = .gpr r) : i.gprDest = some r := by
  unfold instrDst at h
  split at h <;> simp_all

theorem instrDst_eq_fpr {i : Instr} {r : RegIx} (h : instrDst i = .fpr r) : i.fprDest = some r := by
  unfold instrDst at h
  split at h <;> simp_all

theorem instrDst_eq_hilo {i : Instr} {hiEn loEn : Bool} (h : instrDst i = .hilo hiEn loEn) :
    i.hiloDest = (hiEn, loEn) := by
  unfold instrDst at h
  split at h <;> simp_all

end Sys2Proof.Machine

namespace Sys2Proof.Proofs

open Sys2Proof.Machine

/-- Settles O54: a cycle and each stage of `exec` leave the parameters. -/
theorem parametersAreConstant : Obligations.ParametersAreConstant := by
  unfold Obligations.ParametersAreConstant
  refine ⟨fun s t hst => ?_, fun i s t hst => ?_⟩
  · obtain ⟨-, rfl⟩ := step_next hst
    exact cycle_params s
  · rw [exec_next hst, wbState_params, flowMemoryState, memState_params, (flowExecuteState_sameArch _ _ _).params]

/-- Settles O40: after three cycles Writeback is given the record of `exec` in a state that agrees with
the one of `exec`, and Writeback keeps that agreement. -/
theorem pipelineRunsExec : Obligations.PipelineRunsExec := by
  unfold Obligations.PipelineRunsExec
  intro s t i hq hw hexec
  obtain ⟨u, hu, hmemwb, harch⟩ := stepN_three_waiting hq hw
  obtain ⟨hs, -⟩ := hq
  obtain rfl := exec_next hexec
  have hstatus : u.status = .running := by
    rw [harch.status, flowMemoryState, memState_status, (flowExecuteState_sameArch _ _ _).status, hs]
  have wb := wbState_congr harch u.memwb
  rw [hmemwb] at wb
  refine ⟨u, hu, hstatus, ?_⟩
  rw [hmemwb]
  refine ⟨wb.gpr, wb.fpr, wb.hi, wb.lo, wb.mem, wb.os, wb.status, wb.sysReplies, cycle u, ?_, ?_⟩
  · rw [stepN_succ_right hu, step_running ((isRunning_iff _).2 hstatus)]
  · rw [cycle_gpr, cycle_fpr, cycle_hi, cycle_lo, cycle_os, cycle_sysReplies, hmemwb]
    refine ⟨wb.gpr, wb.fpr, wb.hi, wb.lo, wb.os, wb.sysReplies, fun hend => ?_⟩
    rw [← wb.status, Ne, ← isRunning_iff, Bool.not_eq_true, ← hmemwb] at hend
    rw [cycle_ends hend, hmemwb]

/-- Settles O25: each of the four stages leaves all but the destination in the instruction's record, and
that is the destination of R421's table, or none where the instruction is refused. -/
theorem registerFrame : Obligations.RegisterFrame := by
  unfold Obligations.RegisterFrame
  intro i s t hrun ht
  have frame := exec_frame hrun ht
  refine ⟨fun r hr => ?_, fun r hr => frame.fpr r fun h => hr (instrDst_eq_fpr h), fun hhi => ?_, fun hlo => ?_,
    frame.branch, frame.os, frame.params, frame.sysReplies, frame.nfetched, frame.draws, frame.decoderStall,
    frame.syscallStall, frame.ifid, frame.idex, frame.exmem, frame.memwb⟩
  · have hd : instrDst i ≠ .gpr r := fun h => hr (instrDst_eq_gpr h)
    exact ⟨frame.gpr r hd, frame.byp r hd⟩
  · refine frame.hi fun loEn h => ?_
    rw [instrDst_eq_hilo h] at hhi
    cases hhi
  · refine frame.lo fun hiEn h => ?_
    rw [instrDst_eq_hilo h] at hlo
    cases hlo

end Sys2Proof.Proofs

/-! PROOFS, family 10_state: every step keeps the pipeline invariant (O58); stalls, operands and the bypass
copy (O34, O37, O59); what only Writeback and only Fetch may write (O46, O48); register 0, terminal states,
launch and the placing of a word (O27, O45, O55, O57, O60). -/

namespace Sys2Proof.Machine

/-! ### What Decode issues -/

/-- Decode issues the record it builds, or the same refused (R412, R428). -/
theorem issueRecord_cases (op : Op) (h : Handler) (d : FetchLatch) (e m : Record) (s : State) :
    issueRecord op h d e m s = makeRecord op h d e m s ∧
        (s.bdPending = true → h.isCT = false ∧ h.isSyscall = false) ∨
      issueRecord op h d e m s = (makeRecord op h d e m s).refuse .delaySlotControl := by
  unfold issueRecord
  dsimp only
  split
  · exact .inr rfl
  · next hok => exact .inl ⟨rfl, by simp_all⟩

@[simp] theorem issueRecord_op (op : Op) (h : Handler) (d : FetchLatch) (e m : Record) (s : State) :
    (issueRecord op h d e m s).op = if h.isIllegal then .illegal else op := by
  rcases issueRecord_cases op h d e m s with ⟨hr, -⟩ | hr <;> rw [hr] <;> rfl

@[simp] theorem issueRecord_ins (op : Op) (h : Handler) (d : FetchLatch) (e m : Record) (s : State) :
    (issueRecord op h d e m s).ins = d.ins := by
  rcases issueRecord_cases op h d e m s with ⟨hr, -⟩ | hr <;> rw [hr] <;> rfl

@[simp] theorem issueRecord_insPC (op : Op) (h : Handler) (d : FetchLatch) (e m : Record) (s : State) :
    (issueRecord op h d e m s).insPC = d.insPC := by
  rcases issueRecord_cases op h d e m s with ⟨hr, -⟩ | hr <;> rw [hr] <;> rfl

@[simp] theorem issueRecord_vrs (op : Op) (h : Handler) (d : FetchLatch) (e m : Record) (s : State) :
    (issueRecord op h d e m s).vrs = s.byp.read h.rs := by
  rcases issueRecord_cases op h d e m s with ⟨hr, -⟩ | hr <;> rw [hr] <;> rfl

@[simp] theorem issueRecord_vrt (op : Op) (h : Handler) (d : FetchLatch) (e m : Record) (s : State) :
    (issueRecord op h d e m s).vrt = s.byp.read h.rt := by
  rcases issueRecord_cases op h d e m s with ⟨hr, -⟩ | hr <;> rw [hr] <;> rfl

/-- A trap is not issued in a delay slot (R428). -/
theorem issueRecord_trap {op : Op} {h : Handler} {d : FetchLatch} {e m : Record} {s : State}
    (ht : (issueRecord op h d e m s).isSyscall = true) : s.bdPending = false := by
  rcases issueRecord_cases op h d e m s with ⟨hr, hslot⟩ | hr <;> rw [hr] at ht
  · have hsys : h.isSyscall = true := ht
    refine Bool.eq_false_iff.2 fun hbd => ?_
    obtain ⟨-, hno⟩ := hslot hbd
    rw [hsys] at hno
    cases hno
  · cases ht

@[simp] theorem issueState_syscallStall (op : Op) (h : Handler) (d : FetchLatch) (e m : Record) (s : State) :
    (issueState op h d e m s).syscallStall = (s.syscallStall || (issueRecord op h d e m s).isSyscall) := by
  simp [issueState]

@[simp] theorem issueState_bdPending (op : Op) (h : Handler) (d : FetchLatch) (e m : Record) (s : State) :
    (issueState op h d e m s).bdPending = (issueRecord op h d e m s).isCT := by
  simp [issueState]

/-! ### What fetch puts into IFID -/

@[simp] theorem fetchEntry_valid (s : State) : s.fetchEntry.valid = true := by
  unfold State.fetchEntry
  split
  · rfl
  · split <;> rfl

@[simp] theorem fetchEntry_insPC (s : State) : s.fetchEntry.insPC = s.pc := by
  unfold State.fetchEntry
  split
  · rfl
  · split <;> rfl

/-! ### Decode issues, or its record is no instruction -/

/-- The handler of the word in IFID (R412). -/
def State.entryHandler (s : State) : Handler := opHandler s.params (entryOp s.ifid.ins)

/-- The record of the word in IFID as Decode issues it in this cycle (R412, R430). -/
def State.issued (s : State) : Record :=
  issueRecord (entryOp s.ifid.ins) s.entryHandler s.ifid (exStepRecord s.params s.idex) (memOut s) (afterMemory s)

/-- Decode issues the word in IFID in this cycle (R410, R412). -/
structure State.Issues (s : State) : Prop where
  gate : (afterMemory s).syscallStall = false
  noStall : s.decoderStall = 0
  valid : s.ifid.valid = true
  noFault : s.ifid.ffault = none
  noHazard : hazard s.entryHandler (exStepRecord s.params s.idex) (memOut s) s.memwb = 0
  record : (idOut s).record = s.issued
  consumed : (idOut s).consumed = true
  newCT : (idOut s).newCT = s.issued.isCT
  decoderStall : (idOut s).state.decoderStall = 0
  bdPending : (idOut s).state.bdPending = s.issued.isCT
  syscallStall : (idOut s).state.syscallStall = ((afterMemory s).syscallStall || s.issued.isSyscall)

/-- Decode sends on a bubble or the record of a fetch fault, and leaves both gates alone (R410). -/
structure State.Passes (s : State) : Prop where
  notInstr : ∀ i, (idOut s).record.op ≠ .instr i
  isCT : (idOut s).record.isCT = false
  isSyscall : (idOut s).record.isSyscall = false
  newCT : (idOut s).newCT = false
  syscallStall : (idOut s).state.syscallStall = (afterMemory s).syscallStall

/-- With the gate open, no stall pending and no hazard, the waiting word is issued (R410, R427). -/
theorem issues_of_noHazard {s : State} (hgate : (afterMemory s).syscallStall = false) (hstall : s.decoderStall = 0)
    (hvalid : s.ifid.valid = true) (hfault : s.ifid.ffault = none)
    (hhaz : hazard s.entryHandler (exStepRecord s.params s.idex) (memOut s) s.memwb = 0) : s.Issues := by
  have hr : idOut s = ⟨s.issued, true, s.issued.isCT, issueState (entryOp s.ifid.ins) s.entryHandler s.ifid
      (exStepRecord s.params s.idex) (memOut s) (afterMemory s)⟩ := by
    rw [State.entryHandler] at hhaz
    rw [idOut, hgate, idStep, idDecode, State.issued, State.entryHandler]
    simp only [afterMemory_decoderStall, afterMemory_params, hstall, hvalid, hfault, hhaz]
    rfl
  exact {
    gate := hgate
    noStall := hstall
    valid := hvalid
    noFault := hfault
    noHazard := hhaz
    record := by rw [hr]
    consumed := by rw [hr]
    newCT := by rw [hr]
    decoderStall := by rw [hr]; simpa using hstall
    bdPending := by rw [hr]; exact issueState_bdPending _ _ _ _ _ _
    syscallStall := by rw [hr]; exact issueState_syscallStall _ _ _ _ _ _ }

theorem issues_or_passes (s : State) : s.Issues ∨ s.Passes := by
  have passes {r : Record} {c : Bool} {x : State} (hr : idOut s = ⟨r, c, false, x⟩) (hop : ∀ i, r.op ≠ .instr i)
      (hct : r.isCT = false) (hsys : r.isSyscall = false) (hx : x.syscallStall = (afterMemory s).syscallStall) :
      s.Passes :=
    ⟨by rw [hr]; exact hop, by rw [hr]; exact hct, by rw [hr]; exact hsys, by rw [hr], by rw [hr]; exact hx⟩
  cases idOut_cases s with
  | idle _ hr => exact .inr (passes hr nofun rfl rfl rfl)
  | stalled _ _ hr => exact .inr (passes hr nofun rfl rfl rfl)
  | fault f _ _ _ _ hr => exact .inr (passes hr nofun rfl rfl rfl)
  | waits _ _ _ _ _ hr => exact .inr (passes hr nofun rfl rfl rfl)
  | issue hgate hstall hvalid hfault hhaz hr =>
    rw [afterMemory_params] at hhaz
    rw [afterMemory_decoderStall] at hstall
    exact .inl (issues_of_noHazard hgate hstall hvalid hfault hhaz)

/-- A control transfer in Decode's answer is the waiting word, issued; so is a trap, and any instruction. -/
theorem issues_of_isCT {s : State} (hct : (idOut s).record.isCT = true) : s.Issues :=
  (issues_or_passes s).resolve_right fun passes => by rw [passes.isCT] at hct; cases hct

theorem issues_of_isSyscall {s : State} (hsys : (idOut s).record.isSyscall = true) : s.Issues :=
  (issues_or_passes s).resolve_right fun passes => by rw [passes.isSyscall] at hsys; cases hsys

theorem passes_of_held {s : State} (hc : (idOut s).consumed = false) : s.Passes :=
  (issues_or_passes s).resolve_left fun issues => by rw [issues.consumed] at hc; cases hc

theorem issues_of_instr {s : State} {i : Instr} (hop : (idOut s).record.op = .instr i) : s.Issues :=
  (issues_or_passes s).resolve_right fun passes => passes.notInstr i hop

/-! ### The gates after Decode -/

/-- A stall never exceeds three further cycles (R113, R427). -/
theorem idOut_decoderStall_le {s : State} (hb : s.decoderStall ≤ 3) : (idOut s).state.decoderStall ≤ 3 := by
  cases idOut_cases s with
  | idle _ hr => rw [hr]; simpa using hb
  | stalled _ _ hr =>
    rw [hr]
    dsimp only
    rw [afterMemory_decoderStall]
    omega
  | fault f _ _ _ _ hr => rw [hr]; simpa using hb
  | waits _ _ _ _ _ hr =>
    have hle := hazard_le (opHandler (afterMemory s).params (entryOp s.ifid.ins)) (exStepRecord s.params s.idex)
      (memOut s) s.memwb
    rw [hr]
    dsimp only
    omega
  | issue _ _ _ _ _ hr => rw [hr]; simpa using hb

/-- The branch gate closes behind a control transfer (R429). -/
theorem idOut_newCT (s : State) : (idOut s).newCT = (idOut s).record.isCT := by
  rcases issues_or_passes s with issues | passes
  · rw [issues.newCT, issues.record]
  · rw [passes.newCT, passes.isCT]

/-- A control transfer's delay slot is due (R428). -/
theorem idOut_slotDue {s : State} (hct : (idOut s).record.isCT = true) : (idOut s).state.bdPending = true := by
  have issues := issues_of_isCT hct
  rw [issues.bdPending, ← issues.record, hct]

/-- The syscall gate closes behind a trap (R429). -/
theorem idOut_syscallStall (s : State) :
    (idOut s).state.syscallStall = ((afterMemory s).syscallStall || (idOut s).record.isSyscall) := by
  rcases issues_or_passes s with issues | passes
  · rw [issues.syscallStall, issues.record]
  · rw [passes.syscallStall, passes.isSyscall, Bool.or_false]

/-- Decode keeps the waiting word only in a stall, behind a bubble, with the delay-slot tracker as it was
(R410, R427). -/
theorem idOut_held {s : State} (hc : (idOut s).consumed = false) :
    (idOut s).record = .bubble ∧ (idOut s).state.bdPending = s.bdPending := by
  cases idOut_cases s with
  | idle _ hr => rw [hr] at hc; cases hc
  | stalled _ _ hr => rw [hr]; exact ⟨rfl, afterMemory_bdPending s⟩
  | fault f _ _ _ _ hr => rw [hr] at hc; cases hc
  | waits _ _ _ _ _ hr => rw [hr]; exact ⟨rfl, afterMemory_bdPending s⟩
  | issue _ _ _ _ _ hr => rw [hr] at hc; cases hc

/-! ### A trap in flight

From a state of the invariant, in a cycle that goes on: behind a trap Decode idles, and fetch waits until
the trap has left Writeback (R115, R811, R813). -/

/-- A trap in Writeback that the run survives opens the syscall gate; otherwise Writeback leaves it (R813). -/
theorem wbState_opens_gate {s : State} (htags : s.memwb.tagsOk) (hr : (wbState s.memwb s).status.isRunning = true) :
    (wbState s.memwb s).syscallStall = (s.syscallStall && !s.memwb.isSyscall) := by
  cases hsys : s.memwb.isSyscall with
  | false => rw [(wbState_no_trap hsys hr).2.1]; simp
  | true => rw [(wbState_trap_resumes hsys htags hr).1]; simp

section invariant
variable {s : State} (hI : s.Inv) (hs : s.status = .running)
include hI hs

/-- No trap is in Writeback behind another one, nor with a word waiting (R811). -/
theorem memwb_noTrap (h : s.idex.trapping ∨ s.exmem.trapping ∨ s.ifid.valid = true) :
    s.memwb.isSyscall = false := by
  refine Bool.eq_false_iff.2 fun hsys => ?_
  obtain ⟨hidex, hexmem, hvalid⟩ := hI.drainMemwb hs hsys
  rw [hidex, hexmem, hvalid] at h
  rcases h with h | h | h <;> cases h

/-- Where no delay slot is due, no control transfer is in Execute (R114, R116). -/
theorem idex_isCT_of_noSlot (hbd : s.bdPending = false) : s.idex.isCT = false := by
  refine Bool.eq_false_iff.2 fun hct => ?_
  rw [hI.slotDue hs hct] at hbd
  cases hbd

variable (hr : (wbState s.memwb s).status.isRunning = true)
include hr

/-- When Decode looks at the syscall gate, it is closed exactly behind a trap in Execute or Memory (R115). -/
theorem afterMemory_gate :
    (afterMemory s).syscallStall = true ↔ s.idex.trapping ∨ s.exmem.trapping := by
  have hgate := hI.gate hs
  have hdrain := hI.drainMemwb hs
  rw [afterMemory_syscallStall, wbState_opens_gate hI.memwbTags hr]
  cases hsys : s.memwb.isSyscall with
  | false => simp_all [Record.trapping]
  | true =>
    obtain ⟨hidex, hexmem, -⟩ := hdrain hsys
    simp [hidex, hexmem, Record.trapping, Record.bubble]

/-- Behind a trap Decode sends a bubble (R410, R811). -/
theorem idOut_behind_trap (ht : s.idex.trapping ∨ s.exmem.trapping ∨ s.memwb.trapping) :
    idOut s = ⟨.bubble, true, false, afterMemory s⟩ := by
  have hstall := hI.drainStall hs ht
  have hidle : (afterMemory s).syscallStall = true ∨ s.ifid.valid = false := by
    rw [afterMemory_gate hI hs hr]
    rcases ht with ht | ht | ht
    · exact .inl (.inl ht)
    · exact .inl (.inr ht)
    · exact .inr (hI.drainMemwb hs ht).2.2
  cases idOut_cases s with
  | idle _ hr => exact hr
  | stalled _ h _ => simp [hstall] at h
  | fault f h _ hv _ _ => simp_all
  | waits h _ hv _ _ _ => simp_all
  | issue h _ hv _ _ _ => simp_all

/-- While a trap is in Execute or Memory, IFID is emptied and `pc` stays (R480, R811). -/
theorem fetch_behind_trap (ht : s.idex.trapping ∨ s.exmem.trapping) :
    (cycle s).ifid = .empty ∧ (cycle s).pc = s.pc := by
  have hw := memwb_noTrap hI hs (ht.imp_right .inl)
  have hid := idOut_behind_trap hI hs hr (ht.imp_right .inl)
  have hgate := (afterMemory_gate hI hs hr).2 ht
  have hpc : (afterMemory s).pc = s.pc := by
    refine afterMemory_pc s (wbState_no_trap hw hr).1 ?_
    rcases ht with ht | ht
    · exact .inr (.inl ht)
    · rw [(hI.drainExmem hs ht).1]; exact .inl rfl
  cases fetch_cases hr with
  | held hc => rw [hid] at hc; cases hc
  | gated _ _ h1 h2 _ => exact ⟨h1, h2.trans hpc⟩
  | fetched _ hg => rw [hgate] at hg; cases hg

/-- Outside a delay slot, fetch still stands one word past the waiting word when Decode sees it (R110). -/
theorem pc_past_waiting (hv : s.ifid.valid = true) (hbd : s.bdPending = false) :
    (afterMemory s).pc = s.ifid.insPC + 4#32 := by
  have hw := memwb_noTrap hI hs (.inr (.inr hv))
  rw [afterMemory_pc s (wbState_no_trap hw hr).1 (.inl (idex_isCT_of_noSlot hI hs hbd)), hI.waitingPC hs hv hbd]

/-! ### The parts of the invariant after a cycle that goes on -/

theorem cycle_gate :
    (cycle s).syscallStall = true ↔
      (cycle s).idex.trapping ∨ (cycle s).exmem.trapping ∨ (cycle s).memwb.trapping := by
  rw [goesOn_syscallStall hr, goesOn_idex hr, goesOn_exmem hr, goesOn_memwb hr, idOut_syscallStall, Bool.or_eq_true,
    afterMemory_gate hI hs hr, or_comm]
  simp [Record.trapping, memOut]

theorem cycle_drainExmem (ht : (cycle s).exmem.trapping) :
    (cycle s).idex = .bubble ∧ (cycle s).ifid.valid = false := by
  have ht' : s.idex.trapping := by simpa [Record.trapping, goesOn_exmem hr] using ht
  rw [goesOn_idex hr, idOut_behind_trap hI hs hr (.inl ht'), (fetch_behind_trap hI hs hr (.inl ht')).1]
  exact ⟨rfl, rfl⟩

theorem cycle_drainMemwb (ht : (cycle s).memwb.trapping) :
    (cycle s).idex = .bubble ∧ (cycle s).exmem = .bubble ∧ (cycle s).ifid.valid = false := by
  have ht' : s.exmem.trapping := by simpa [Record.trapping, goesOn_memwb hr, memOut] using ht
  rw [goesOn_idex hr, idOut_behind_trap hI hs hr (.inr (.inl ht')), goesOn_exmem hr, (hI.drainExmem hs ht').1,
    (fetch_behind_trap hI hs hr (.inr ht')).1]
  exact ⟨rfl, rfl, rfl⟩

theorem cycle_drainStall (ht : (cycle s).idex.trapping ∨ (cycle s).exmem.trapping ∨ (cycle s).memwb.trapping) :
    (cycle s).decoderStall = 0 := by
  rw [goesOn_idex hr, goesOn_exmem hr, goesOn_memwb hr] at ht
  rw [goesOn_decoderStall hr]
  rcases ht with ht | ht
  · exact (issues_of_isSyscall ht).decoderStall
  · have ht' : s.idex.trapping ∨ s.exmem.trapping ∨ s.memwb.trapping :=
      or_assoc.1 (.inl (by simpa [Record.trapping, memOut] using ht))
    rw [idOut_behind_trap hI hs hr ht']
    simpa using hI.drainStall hs ht'

theorem cycle_waitingPC (hv : (cycle s).ifid.valid = true) (hbd : (cycle s).bdPending = false) :
    (cycle s).pc = (cycle s).ifid.insPC + 4#32 := by
  cases fetch_cases hr with
  | held hc h1 h2 _ =>
    rw [h1] at hv ⊢
    rw [goesOn_bdPending hr, (idOut_held hc).2] at hbd
    rw [h2, pc_past_waiting hI hs hr hv hbd]
  | gated _ _ h1 _ _ => rw [h1] at hv; cases hv
  | fetched _ _ _ _ h1 h2 _ => rw [h1, h2, fetchEntry_insPC]

/-- Without a fetch budget, the word behind a trap is fetched in the cycle that issues it (R484, R814). -/
theorem cycle_pc_issued_trap (hbud : s.params.fetchBudget = none) (ht : (cycle s).idex.trapping) :
    (cycle s).pc = (cycle s).idex.insPC + 8#32 := by
  rw [goesOn_idex hr] at ht ⊢
  have issues := issues_of_isSyscall ht
  rw [issues.record] at ht ⊢
  have hbd : s.bdPending = false := by simpa using issueRecord_trap ht
  have hpc := pc_past_waiting hI hs hr issues.valid hbd
  have hopen : s.branchStall = false := (hI.branchGate hs).trans (idex_isCT_of_noSlot hI hs hbd)
  have hspent : (afterMemory s).budgetSpent = false := by simp [State.budgetSpent, hbud]
  cases fetch_cases hr with
  | held hc => rw [issues.consumed] at hc; cases hc
  | gated _ hg => rw [issues.gate, hopen, hspent] at hg; simp at hg
  | fetched _ _ _ _ _ h2 _ =>
    rw [h2, hpc, State.issued, issueRecord_insPC, BitVec.add_assoc]
    rfl

theorem cycle_trapPC (hbud : s.params.fetchBudget = none) (r : Record)
    (hrec : r = (cycle s).idex ∨ r = (cycle s).exmem ∨ r = (cycle s).memwb) (ht : r.trapping) :
    (cycle s).pc = r.insPC + 8#32 := by
  have older := hI.trapPC hs hbud
  rcases hrec with rfl | rfl | rfl
  · exact cycle_pc_issued_trap hI hs hr hbud ht
  · rw [goesOn_exmem hr] at ht ⊢
    simp only [Record.trapping, exStepRecord_isSyscall, exStepRecord_insPC] at ht ⊢
    rw [(fetch_behind_trap hI hs hr (.inl ht)).2, older _ (.inl rfl) ht]
  · rw [goesOn_memwb hr] at ht ⊢
    simp only [Record.trapping, memOut, memRecord_isSyscall, memRecord_insPC] at ht ⊢
    rw [(fetch_behind_trap hI hs hr (.inr ht)).2, older _ (.inr (.inl rfl)) ht]

/-- A cycle that goes on keeps the invariant. -/
theorem goesOn_keeps_inv : (cycle s).Inv where
  memWf := cycle_wf hI.memWf
  stallBound := by rw [goesOn_decoderStall hr]; exact idOut_decoderStall_le hI.stallBound
  idexTags := by rw [goesOn_idex hr]; exact idOut_tagsOk s
  exmemTags := by rw [goesOn_exmem hr]; exact exStepRecord_tagsOk hI.idexTags
  memwbTags := by rw [goesOn_memwb hr]; exact memRecord_tagsOk hI.exmemTags
  bypass _ := cycle_byp_read s hI hs hr
  gate _ := cycle_gate hI hs hr
  drainExmem _ := cycle_drainExmem hI hs hr
  drainMemwb _ := cycle_drainMemwb hI hs hr
  drainStall _ := cycle_drainStall hI hs hr
  branchGate _ := by rw [goesOn_branchStall hr, goesOn_idex hr, idOut_newCT]
  slotDue _ := by rw [goesOn_bdPending hr, goesOn_idex hr]; exact idOut_slotDue
  waitingPC _ := cycle_waitingPC hI hs hr
  trapPC _ hbud := cycle_trapPC hI hs hr (by rwa [cycle_params] at hbud)

end invariant

/-- A cycle that Writeback ends keeps the parts of the invariant that hold of every state. -/
theorem ends_keeps_inv {s : State} (hI : s.Inv) (hend : (wbState s.memwb s).status.isRunning = false) :
    (cycle s).Inv := by
  rw [cycle_ends hend]
  have hne : (wbState s.memwb s).status ≠ .running := fun h => by rw [h] at hend; cases hend
  exact {
    memWf := wbState_wf hI.memWf
    stallBound := by simpa using hI.stallBound
    idexTags := by simpa using hI.idexTags
    exmemTags := by simpa using hI.exmemTags
    memwbTags := by simpa using hI.memwbTags
    bypass := (absurd · hne)
    gate := (absurd · hne)
    drainExmem := (absurd · hne)
    drainMemwb := (absurd · hne)
    drainStall := (absurd · hne)
    branchGate := (absurd · hne)
    slotDue := (absurd · hne)
    waitingPC := (absurd · hne)
    trapPC := (absurd · hne) }

/-- Every cycle of a running machine keeps the invariant. -/
theorem cycle_keeps_inv {s : State} (hI : s.Inv) (hs : s.status = .running) : (cycle s).Inv := by
  cases hr : (wbState s.memwb s).status.isRunning with
  | false => exact ends_keeps_inv hI hr
  | true => exact goesOn_keeps_inv hI hs hr

/-! ### Operands (R430, R431) -/

/-- A cycle after which the machine runs is one that goes on (R404). -/
theorem goesOn_of_running {s : State} (h : (cycle s).status = .running) :
    (wbState s.memwb s).status.isRunning = true := by
  cases hr : (wbState s.memwb s).status.isRunning with
  | true => rfl
  | false =>
    rw [cycle_ends hr] at h
    rw [h] at hr
    cases hr

theorem hitsAny_of_mem {d : Dst} {x : Src} {sources : List Src} (hx : x ∈ sources) (hd : d.hits x = true) :
    d.hitsAny sources = true := List.any_eq_true.2 ⟨x, hx, hd⟩

/-- The load-use rule keeps an instruction from reading the destination of a load in Execute (R422). -/
theorem not_load_of_noHazard {h : Handler} {e m w : Record} {j : RegIx} (hz : hazard h e m w = 0)
    (hsrc : Src.g j ∈ h.sources) (hj : j ≠ 0#5) (hd : e.dst = .gpr j) : e.isLoad = false := by
  refine Bool.eq_false_iff.2 fun hl => ?_
  have hhit : e.dst.hitsAny h.sources = true := hitsAny_of_mem hsrc (by simp [hd, Dst.hits, hj])
  have huse : loadUseHazard h e = Config.loadUseStall := by simp [loadUseHazard, hhit, hl]
  have hle : loadUseHazard h e ≤ hazard h e m w := Nat.le_max_left _ _
  rw [huse, hz] at hle
  exact absurd hle (by decide)

/-- So for the registers it reads, the values of the older records in flight are complete (R104, R431). -/
theorem overlayExecuted_read_of_noHazard {h : Handler} {e m w : Record} {j : RegIx} (hz : hazard h e m w = 0)
    (hsrc : Src.g j ∈ h.sources) (f : RegFile) : (e.overlayExecuted f).read j = (e.overlay f).read j := by
  by_cases hj : j = 0#5
  · rw [hj]; rfl
  · rw [overlayExecuted_read e f j hj, overlay_read e f j hj]
    by_cases hd : e.dst = .gpr j
    · simp [not_load_of_noHazard hz hsrc hj hd]
    · simp [hd]

/-- An instruction in IDEX is the one that waited in IFID, with its handler (R412). -/
theorem entryHandler_of_issued {s : State} {i : Instr} (hop : s.issued.op = .instr i) :
    s.entryHandler = handlerOf s.params i := by
  rw [State.issued, issueRecord_op] at hop
  split at hop
  · cases hop
  · rw [State.entryHandler, hop]; rfl

/-- When a word is issued, a source register reads in the bypass copy as the older records in flight, and
then the committed file, give it (R104, R430, R431). -/
theorem byp_read_source {s : State} (hI : s.Inv) (hs : s.status = .running)
    (hr : (wbState s.memwb s).status.isRunning = true) (issues : s.Issues) {j : RegIx}
    (hsrc : Src.g j ∈ s.entryHandler.sources) :
    (afterMemory s).byp.read j =
      ((cycle s).exmem.overlay ((cycle s).memwb.overlay (cycle s).gpr)).read j := by
  rw [← goesOn_byp hr, cycle_byp_read s hI hs hr, State.newest, goesOn_exmem hr]
  exact overlayExecuted_read_of_noHazard issues.noHazard hsrc _

/-! ### Stalls (R427) -/

/-- The syscall gate that Decode sees is open where it was open before the cycle (R115). -/
theorem afterMemory_gate_open {s : State} (htags : s.memwb.tagsOk)
    (hr : (wbState s.memwb s).status.isRunning = true) (hss : s.syscallStall = false) :
    (afterMemory s).syscallStall = false := by
  rw [afterMemory_syscallStall, wbState_opens_gate htags hr, hss]
  rfl

section open_gate
variable {s : State} (hgate : (afterMemory s).syscallStall = false)
include hgate

/-- A pending stall counts down (R410). -/
theorem idOut_stalled (hstall : 0 < s.decoderStall) :
    (idOut s).consumed = false ∧ (idOut s).state.decoderStall = s.decoderStall - 1 := by
  cases idOut_cases s with
  | stalled _ _ hr => rw [hr]; exact ⟨rfl, by simp⟩
  | idle h _ =>
    simp only [hgate, afterMemory_decoderStall, Bool.false_eq_true, false_or] at h
    omega
  | fault f _ h => rw [afterMemory_decoderStall] at h; omega
  | waits _ h => rw [afterMemory_decoderStall] at h; omega
  | issue _ h => rw [afterMemory_decoderStall] at h; omega

/-- A hazard begins a stall (R427). -/
theorem idOut_waits (hstall : s.decoderStall = 0) (hvalid : s.ifid.valid = true) (hfault : s.ifid.ffault = none)
    (hhaz : 0 < hazard s.entryHandler (exStepRecord s.params s.idex) (memOut s) s.memwb) :
    (idOut s).consumed = false ∧ (idOut s).state.decoderStall =
      hazard s.entryHandler (exStepRecord s.params s.idex) (memOut s) s.memwb - 1 := by
  cases idOut_cases s with
  | waits _ _ _ _ _ hr => rw [hr, State.entryHandler]; exact ⟨rfl, by simp⟩
  | idle h _ => simp_all
  | stalled _ h => rw [afterMemory_decoderStall] at h; omega
  | fault f _ _ _ h => rw [hfault] at h; cases h
  | issue _ _ _ _ h => rw [State.entryHandler] at hhaz; rw [afterMemory_params] at h; omega

end open_gate

/-- A cycle that keeps the waiting word: everything in flight moves on behind a bubble, and nothing is
fetched (R410, R427, R480). -/
structure State.Holds (s : State) : Prop where
  idex : (cycle s).idex = .bubble
  exmem : (cycle s).exmem = exStepRecord s.params s.idex
  memwb : (cycle s).memwb = memOut s
  ifid : (cycle s).ifid = s.ifid
  nfetched : (cycle s).nfetched = s.nfetched
  syscallStall : (cycle s).syscallStall = false

theorem holds_of_not_consumed {s : State} (htags : s.memwb.tagsOk)
    (hr : (wbState s.memwb s).status.isRunning = true) (hw : s.memwb.isSyscall = false)
    (hss : s.syscallStall = false) (hc : (idOut s).consumed = false) : s.Holds := by
  have hsys : (cycle s).syscallStall = false := by
    rw [goesOn_syscallStall hr, (passes_of_held hc).syscallStall, afterMemory_gate_open htags hr hss]
  have hidex : (cycle s).idex = .bubble := by rw [goesOn_idex hr, (idOut_held hc).1]
  cases fetch_cases hr with
  | held _ h1 _ h3 =>
    rw [afterMemory_nfetched, (wbState_no_trap hw hr).2.2] at h3
    exact ⟨hidex, goesOn_exmem hr, goesOn_memwb hr, h1, h3, hsys⟩
  | gated h => rw [hc] at h; cases h
  | fetched h => rw [hc] at h; cases h

/-! ### The fresh check after a stall (R427) -/

theorem bubble_hits (x : Src) : Record.bubble.dst.hits x = false := by cases x <;> rfl

theorem bubble_hitsAny (sources : List Src) : Record.bubble.dst.hitsAny sources = false := by
  simp [Dst.hitsAny, bubble_hits]

/-- No hazard asks for one bubble only. -/
theorem two_le_hazard {h : Handler} {e m w : Record} (hn : 0 < hazard h e m w) : 2 ≤ hazard h e m w := by
  have hload : loadUseHazard h e ≠ 1 := by
    unfold loadUseHazard
    split <;> decide
  have hhilo : hiloHazard h e m w ≠ 1 := by
    unfold hiloHazard
    repeat' split
    all_goals decide
  have hstore : storeHazard h e m w ≠ 1 := by
    unfold storeHazard
    repeat' split
    all_goals decide
  unfold hazard at hn ⊢
  omega

/-- A Hi/Lo producer in Execute asks for four bubbles, so where fewer are asked for it is none, and asks for
none in Writeback (R423). -/
theorem hiloHazard_in_writeback {h : Handler} {e m w w' : Record} (hn : hiloHazard h e m w < 4)
    (hd : w'.dst = e.dst) : hiloHazard h .bubble .bubble w' = 0 := by
  unfold hiloHazard at hn ⊢
  rw [bubble_hits, hd]
  split
  · rfl
  · next hsrc =>
    rw [if_neg hsrc] at hn
    cases he : e.dst.hits .hilo with
    | false => simp
    | true => simp [he, Config.hiloStallE] at hn

/-- The same for what a store reads (R424). -/
theorem storeHazard_in_writeback {h : Handler} {e m w w' : Record} (hn : storeHazard h e m w < 4)
    (hd : w'.dst = e.dst) : storeHazard h .bubble .bubble w' = 0 := by
  unfold storeHazard at hn ⊢
  rw [bubble_hitsAny, hd]
  split
  · rfl
  · next hstore =>
    rw [if_neg hstore] at hn
    cases he : e.dst.hitsAny h.sources with
    | false => simp
    | true => simp [he, Config.storeStallE] at hn

/-- Two bubbles behind a record that asked for fewer than four, there is no hazard left (R427). -/
theorem hazard_in_writeback {h : Handler} {e m w w' : Record} (hn : hazard h e m w < 4) (hd : w'.dst = e.dst) :
    hazard h .bubble .bubble w' = 0 := by
  unfold hazard at hn ⊢
  rw [hiloHazard_in_writeback (e := e) (m := m) (w := w) (by omega) hd,
    storeHazard_in_writeback (e := e) (m := m) (w := w) (by omega) hd]
  rfl

/-! ### The cycles of a stall -/

/-- `t` is what a stall of `n` cycles makes of `s` after `k` of them, one or more: the producer that stood in
Execute of `s` is on its way out, with bubbles behind it. -/
structure Stalled (s : State) (n k : Nat) (t : State) : Prop where
  inv : t.Inv
  status : t.status = .running
  params : t.params = s.params
  ifid : t.ifid = s.ifid
  nfetched : t.nfetched = s.nfetched
  decoderStall : t.decoderStall = n - k
  syscallStall : t.syscallStall = false
  idex : t.idex = .bubble
  exmemDst : k = 1 → t.exmem.dst = s.idex.dst
  exmem : 2 ≤ k → t.exmem = .bubble
  memwbDst : k = 2 → t.memwb.dst = s.idex.dst
  memwb : 3 ≤ k → t.memwb = .bubble

/-- With the syscall gate open no trap is in Writeback (R115). -/
theorem memwb_noTrap_of_gate {s : State} (hI : s.Inv) (hs : s.status = .running) (hss : s.syscallStall = false) :
    s.memwb.isSyscall = false := by
  refine Bool.eq_false_iff.2 fun hsys => ?_
  rw [(hI.gate hs).2 (.inr (.inr hsys))] at hss
  cases hss

theorem entryHandler_of_waiting {s : State} {i : Instr} (hw : s.waiting i) :
    s.entryHandler = handlerOf s.params i := by
  obtain ⟨-, -, hdec⟩ := hw
  simp [State.entryHandler, entryOp, hdec, opHandler]

/-- The first cycle of a stall: the hazard holds the waiting word (R427). -/
theorem stalled_first {s : State} {i : Instr} (hw : s.waiting i) (hI : s.Inv) (hs : s.status = .running)
    (hss : s.syscallStall = false) (hstall : s.decoderStall = 0) (hrun : (cycle s).status = .running)
    (hn : 0 < hazard (handlerOf s.params i) (exStepRecord s.params s.idex) (memOut s) s.memwb) :
    Stalled s (hazard (handlerOf s.params i) (exStepRecord s.params s.idex) (memOut s) s.memwb) 1 (cycle s) := by
  rw [← entryHandler_of_waiting hw] at hn ⊢
  obtain ⟨hvalid, hfault, -⟩ := hw
  have hr := goesOn_of_running hrun
  have hgate := afterMemory_gate_open hI.memwbTags hr hss
  obtain ⟨hc, hcount⟩ := idOut_waits hgate hstall hvalid hfault hn
  have holds := holds_of_not_consumed hI.memwbTags hr (memwb_noTrap_of_gate hI hs hss) hss hc
  exact {
    inv := goesOn_keeps_inv hI hs hr
    status := hrun
    params := cycle_params s
    ifid := holds.ifid
    nfetched := holds.nfetched
    decoderStall := by rw [goesOn_decoderStall hr, hcount]
    syscallStall := holds.syscallStall
    idex := holds.idex
    exmemDst := fun _ => by rw [holds.exmem, exStepRecord_dst]
    exmem := by omega
    memwbDst := by omega
    memwb := by omega }

/-- A further cycle of a stall counts down (R410). -/
theorem stalled_next {s t : State} {n k : Nat} (st : Stalled s n k t) (hk : 1 ≤ k) (hkn : k < n)
    (hrun : (cycle t).status = .running) : Stalled s n (k + 1) (cycle t) := by
  have hr := goesOn_of_running hrun
  have hgate := afterMemory_gate_open st.inv.memwbTags hr st.syscallStall
  have hpending : 0 < t.decoderStall := by rw [st.decoderStall]; omega
  obtain ⟨hc, hcount⟩ := idOut_stalled hgate hpending
  have holds := holds_of_not_consumed st.inv.memwbTags hr
    (memwb_noTrap_of_gate st.inv st.status st.syscallStall) st.syscallStall hc
  have exmem : (cycle t).exmem = .bubble := by rw [holds.exmem, st.idex]; rfl
  exact {
    inv := goesOn_keeps_inv st.inv st.status hr
    status := hrun
    params := (cycle_params t).trans st.params
    ifid := holds.ifid.trans st.ifid
    nfetched := holds.nfetched.trans st.nfetched
    decoderStall := by rw [goesOn_decoderStall hr, hcount, st.decoderStall, Nat.sub_sub]
    syscallStall := holds.syscallStall
    idex := holds.idex
    exmemDst := fun _ => by omega
    exmem := fun _ => exmem
    memwbDst := fun h2 => by rw [holds.memwb, memOut, memRecord_dst, st.exmemDst (by omega)]
    memwb := fun h3 => by rw [holds.memwb, memOut, st.exmem (by omega), memRecord_bubble] }

/-- The run of a stall, cycle by cycle. -/
theorem stepN_stalled {s : State} {i : Instr} {n : Nat} (hw : s.waiting i) (hI : s.Inv) (hs : s.status = .running)
    (hss : s.syscallStall = false) (hstall : s.decoderStall = 0)
    (hn : n = hazard (handlerOf s.params i) (exStepRecord s.params s.idex) (memOut s) s.memwb)
    (hrun : ∀ j t, j ≤ n → stepN (j + 1) s = .next t → t.status = .running) (k : Nat) (hk : k < n) :
    ∃ t, stepN (k + 1) s = .next t ∧ Stalled s n (k + 1) t := by
  induction k with
  | zero =>
    have h1 : stepN 1 s = .next (cycle s) := stepN_succ hs 0
    subst hn
    exact ⟨cycle s, h1, stalled_first hw hI hs hss hstall (hrun 0 _ (by omega) h1) hk⟩
  | succ k ih =>
    obtain ⟨t, ht, st⟩ := ih (by omega)
    have hnext : stepN (k + 2) s = .next (cycle t) := by
      rw [stepN_succ_right ht, step_running ((isRunning_iff _).2 st.status)]
    exact ⟨cycle t, hnext, stalled_next st (by omega) hk (hrun (k + 1) _ (by omega) hnext)⟩

/-- After its `n` bubbles the fresh check finds no hazard. -/
theorem hazard_after_stall {s t : State} {h : Handler} {n : Nat} (st : Stalled s n n t)
    (hn : n = hazard h (exStepRecord s.params s.idex) (memOut s) s.memwb) (hpos : 0 < n) :
    hazard h (exStepRecord t.params t.idex) (memOut t) t.memwb = 0 := by
  have h2 : 2 ≤ n := hn ▸ two_le_hazard (hn ▸ hpos)
  have hE : exStepRecord t.params t.idex = .bubble := by rw [st.idex]; rfl
  have hM : memOut t = .bubble := by rw [memOut, st.exmem h2, memRecord_bubble]
  rw [hE, hM]
  by_cases h3 : 3 ≤ n
  · rw [st.memwb h3]
    exact hazard_bubbles h
  · exact hazard_in_writeback (e := exStepRecord s.params s.idex) (by rw [← hn]; omega)
      (by rw [st.memwbDst (by omega), exStepRecord_dst])

/-- The cycle after the bubbles issues the instruction that waited (R412, R427). -/
theorem issues_after_stall {s t : State} {i : Instr} {n : Nat} (hw : s.waiting i) (st : Stalled s n n t)
    (hn : n = hazard (handlerOf s.params i) (exStepRecord s.params s.idex) (memOut s) s.memwb) (hpos : 0 < n)
    (hr : (wbState t.memwb t).status.isRunning = true) : t.Issues := by
  have hwt : t.waiting i := by rwa [State.waiting, st.ifid]
  have hhaz := hazard_after_stall st hn hpos
  rw [← st.params, ← entryHandler_of_waiting hwt] at hhaz
  obtain ⟨hvalid, hfault, -⟩ := hwt
  exact issues_of_noHazard (afterMemory_gate_open st.inv.memwbTags hr st.syscallStall)
    (by rw [st.decoderStall, Nat.sub_self]) hvalid hfault hhaz

theorem issued_isBubble (s : State) : s.issued.isBubble = false :=
  (issueRecord_tags _ _ (entryOp_ne_bubble _) _ _ _ _).2

@[simp] theorem issued_insPC (s : State) : s.issued.insPC = s.ifid.insPC := by simp [State.issued]

/-! ### What Writeback and Fetch alone may write -/

/-- A record that is marked as a trap commits to no floating-point register and to no half of Hi/Lo (R471). -/
theorem wbState_trap_keeps {w : Record} (hsys : w.isSyscall = true) (s : State) :
    (wbState w s).fpr = s.fpr ∧ (wbState w s).hi = s.hi ∧ (wbState w s).lo = s.lo := by
  unfold wbState
  rw [hsys]
  split
  · simp
  · simp
  · split
    · simp
    · split <;> simp

/-! ### Launch -/

theorem launch_inv {l : Launch} (hmem : l.mem.wf = true) : (State.launch l).Inv where
  memWf := hmem
  stallBound := Nat.zero_le _
  idexTags := bubble_tags
  exmemTags := bubble_tags
  memwbTags := bubble_tags
  bypass _ _ := rfl
  gate _ := by simp [State.launch, Record.trapping, Record.bubble]
  drainExmem _ := nofun
  drainMemwb _ := nofun
  drainStall _ _ := rfl
  branchGate _ := rfl
  slotDue _ := nofun
  waitingPC _ := nofun
  trapPC _ _ r hrec ht := by
    rcases hrec with rfl | rfl | rfl <;> cases ht

/-! ### Placing a word -/

theorem tableWord_toNat (w : Word) : tableWord 32 w.toNat = w := by
  rw [tableWord, Nat.mod_eq_of_lt w.isLt, BitVec.ofNat_toNat, BitVec.setWidth_eq]

theorem append_bytes (v : Word) :
    v.extractLsb' 24 8 ++ v.extractLsb' 16 8 ++ v.extractLsb' 8 8 ++ v.extractLsb' 0 8 = v := by
  apply BitVec.eq_of_toNat_eq
  simp only [append_toNat, extract_toNat]
  have := v.isLt
  omega

/-- A word reads back as it was stored (R205, R208). -/
theorem read32_write32_same {m : Memory} (h : m.wf = true) (a v : Word) : (m.write32 a v).read32 a = v := by
  have offset (k : Word) : a + k - a = k := by rw [BitVec.add_comm, BitVec.add_sub_cancel]
  simp only [Memory.read32, Memory.read_write32 h, offset, BitVec.sub_self]
  exact append_bytes v

theorem placeWord_quiescent {s : State} (w : Word) (hs : s.status = .running) : (placeWord s w).quiescent := by
  refine ⟨hs, ?_⟩
  simp [placeWord]

theorem placeWord_waiting (s : State) {w : Word} {i : Instr} (hdec : decode w = .ok i) :
    (placeWord s w).waiting i := ⟨rfl, rfl, hdec⟩

end Sys2Proof.Machine

namespace Sys2Proof.Proofs

open Sys2Proof.Machine

/-- Settles O58: a cycle that Writeback ends leaves only what holds of every state to show; in one that goes
on, each part of the invariant follows from its neighbours before the cycle. -/
theorem stepsKeepTheInvariant : Obligations.StepsKeepTheInvariant := by
  unfold Obligations.StepsKeepTheInvariant
  intro s t hI hst
  obtain ⟨hs, rfl⟩ := step_next hst
  exact cycle_keeps_inv hI ((isRunning_iff _).1 hs)

/-- Settles O34: each cycle of the stall counts down and lets the producer move on, and the fresh check
after the last finds it gone. -/
theorem stallsAreExact : Obligations.StallsAreExact := by
  unfold Obligations.StallsAreExact
  intro s i n k hI hw hstall hss hn hpos hrun hs
  have stalled := stepN_stalled hw hI hs hss hstall hn hrun
  refine ⟨fun hk hkn => ?_, ?_⟩
  · obtain ⟨k, rfl⟩ := Nat.exists_eq_succ_of_ne_zero (Nat.ne_of_gt hk)
    obtain ⟨t, ht, st⟩ := stalled k hkn
    exact ⟨t, ht, st.idex, st.ifid, st.decoderStall, st.nfetched⟩
  · obtain ⟨m, rfl⟩ := Nat.exists_eq_succ_of_ne_zero (Nat.ne_of_gt hpos)
    obtain ⟨t, ht, st⟩ := stalled m (Nat.lt_succ_self m)
    have hnext : stepN (m + 1 + 1) s = .next (cycle t) := by
      rw [stepN_succ_right ht, step_running ((isRunning_iff _).2 st.status)]
    have hr := goesOn_of_running (hrun _ _ (Nat.le_refl _) hnext)
    have issues := issues_after_stall hw st hn hpos hr
    refine ⟨cycle t, hnext, ?_⟩
    rw [goesOn_idex hr, issues.record, issued_insPC, st.ifid]
    exact ⟨issued_isBubble t, rfl⟩

/-- Settles O37: Decode reads the bypass copy, which holds the newest values, and no load whose value is
still missing there is a source. -/
theorem operandsAreNewest : Obligations.OperandsAreNewest := by
  unfold Obligations.OperandsAreNewest
  intro s t i hI hst hrun hop
  obtain ⟨hs, rfl⟩ := step_next hst
  rw [isRunning_iff] at hs
  have hr := goesOn_of_running hrun
  rw [goesOn_idex hr] at hop ⊢
  have issues := issues_of_instr hop
  rw [issues.record] at hop ⊢
  rw [← entryHandler_of_issued hop, State.issued, issueRecord_vrs, issueRecord_vrt]
  exact ⟨byp_read_source hI hs hr issues, byp_read_source hI hs hr issues⟩

/-- Settles O46: the other stages leave the committed registers, a commit writes only its destination, and a
trap none of the floating-point and Hi/Lo registers. -/
theorem onlyWritebackCommits : Obligations.OnlyWritebackCommits := by
  unfold Obligations.OnlyWritebackCommits
  intro s t hst
  obtain ⟨-, rfl⟩ := step_next hst
  rw [cycle_gpr, cycle_fpr, cycle_hi, cycle_lo, cycle_os, cycle_sysReplies]
  cases hsys : s.memwb.isSyscall with
  | false =>
    have frame := wbState_frame hsys false s
    exact ⟨fun _ => frame.gpr, frame.fpr, frame.hi, frame.lo, nofun, fun _ => ⟨frame.os, frame.sysReplies⟩⟩
  | true =>
    obtain ⟨hfpr, hhi, hlo⟩ := wbState_trap_keeps hsys s
    exact ⟨nofun, fun _ _ => by rw [hfpr], fun _ => hhi, fun _ => hlo, fun _ => ⟨hfpr, hhi, hlo⟩, nofun⟩

/-- Settles O48: Writeback and Execute leave `pc` and the fetch counter here, so the cases of the fetch step
are all there is. -/
theorem onlyFetchAdvancesThePC : Obligations.OnlyFetchAdvancesThePC := by
  unfold Obligations.OnlyFetchAdvancesThePC
  intro s t hst hsys hbranch
  obtain ⟨-, rfl⟩ := step_next hst
  have frame := wbState_frame hsys false s
  obtain ⟨hpc, -⟩ := frame.branch rfl
  cases hr : (wbState s.memwb s).status.isRunning with
  | false =>
    rw [cycle_ends hr]
    exact .inl ⟨hpc, frame.nfetched⟩
  | true =>
    have hpc' := afterMemory_pc s hpc (hbranch.imp_right .inr)
    have hcount := (afterMemory_nfetched s).trans frame.nfetched
    cases fetch_cases hr with
    | held _ _ h2 h3 => exact .inl ⟨h2.trans hpc', h3.trans hcount⟩
    | gated _ _ _ h2 h3 => exact .inl ⟨h2.trans hpc', h3.trans hcount⟩
    | fetched _ _ _ _ h1 h2 h3 =>
      refine .inr ⟨by rw [h2, hpc'], by rw [h3, hcount], ?_, ?_⟩
      · rw [h1, fetchEntry_valid]
      · rw [h1, fetchEntry_insPC, hpc']

/-- Settles O59: bubbles in Memory and Writeback overlay nothing on the committed file. -/
theorem emptyPipelineBypass : Obligations.EmptyPipelineBypass := by
  unfold Obligations.EmptyPipelineBypass
  intro s hI hs hempty i
  simp only [State.pipelineEmpty, Bool.and_eq_true] at hempty
  obtain ⟨⟨-, hexmem⟩, hmemwb⟩ := hempty
  rw [hI.bypass hs i, State.newest, hI.exmemTags.1 hexmem, hI.memwbTags.1 hmemwb]
  rfl

/-- Settles O27, from what a register reads as after a write. -/
theorem registerZero : Obligations.RegisterZero := by
  unfold Obligations.RegisterZero
  intro f i j v
  refine ⟨f.read_zero, f.write_zero v, f.read_write_same i v, f.read_write_other i j v, ?_, fun hne => ?_⟩
  · rw [f.readF_writeF, if_pos rfl]
  · rw [f.readF_writeF, if_neg hne]

/-- Settles O45: both operations ask first whether the run goes on. -/
theorem terminalStatesStop : Obligations.TerminalStatesStop := by
  unfold Obligations.TerminalStatesStop
  intro s hs
  have hend : s.status.isRunning = false := by rwa [← Bool.not_eq_true, isRunning_iff]
  exact ⟨step_ended hend, exec_ended hend⟩

/-- Settles O55: forcing register 0 changes no other register, and the rest is as launched. -/
theorem launchState : Obligations.LaunchState := by
  unfold Obligations.LaunchState
  intro l
  have flags (i : Fin 32) : (State.launch l).wflag[i] = false := by simp [State.launch, clearFlags]
  exact ⟨rfl, fun i _ => l.gpr.forceR0_read i, rfl, rfl, rfl, rfl, rfl, flags, rfl, rfl, rfl, rfl, rfl, rfl, rfl, rfl,
    rfl, rfl, rfl, rfl, rfl, rfl, rfl⟩

/-- Settles O57: at launch both register copies agree and nothing is in flight. -/
theorem invariantAtLaunch : Obligations.InvariantAtLaunch := by
  unfold Obligations.InvariantAtLaunch
  exact ⟨fun _ => launch_inv, launch_inv rfl⟩

/-- Settles O60: the placed word waits with nothing in flight, so the next cycle issues it. -/
theorem placedWordIsIssued : Obligations.PlacedWordIsIssued := by
  unfold Obligations.PlacedWordIsIssued
  intro s w i hs hmem hdec
  rw [State.withFetchWord, tableWord_toNat]
  have hq := placeWord_quiescent w hs
  have hw := placeWord_waiting s hdec
  have table : decodeTableWord 32 w.toNat = some i := by
    rw [decodeTableWord, tableWord_toNat, wordOfBytes_bytesOfWord, hdec]
  have idex := (cycle_issues hq hw).1
  refine ⟨hq, hw, rfl, read32_write32_same hmem s.pc w, table, cycle (placeWord s w),
    step_running ((isRunning_iff _).2 hs), idex, ?_, ?_⟩
  · rw [idex, flowIssued, issueRecord_ins]
    rfl
  · rw [idex, flowIssued, issueRecord_insPC]
    rfl

end Sys2Proof.Proofs

/-! PROOFS, family 20_memory: faults and frames of memory instructions (O24, O26), the two descriptions of
memory (O28), a load after a store (O29), what a cycle does to memory and what a fetch sees of it (O47, O51),
and the bytes of an instruction (O4). -/

namespace Sys2Proof

/-! ### The aligned address below an address (R201, R654) -/

/-- Clearing the low `n` bits rounds down to a multiple of `2 ^ n`. -/
theorem toNat_and_highMask (a : Word) (n : Nat) :
    (a &&& (BitVec.allOnes 32 <<< n)).toNat = a.toNat / 2 ^ n * 2 ^ n := by
  have hshift : a &&& (BitVec.allOnes 32 <<< n) = (a >>> n) <<< n := by
    apply BitVec.eq_of_getLsbD_eq
    intro i hi
    simp only [BitVec.getLsbD_and, BitVec.getLsbD_shiftLeft, BitVec.getLsbD_allOnes, BitVec.getLsbD_ushiftRight]
    by_cases hin : i < n
    · simp [hin]
    · rw [Nat.add_sub_cancel' (Nat.le_of_not_lt hin)]
      simp [hin, hi, Nat.lt_of_le_of_lt (Nat.sub_le i n) hi]
  rw [hshift, BitVec.toNat_shiftLeft, BitVec.toNat_ushiftRight, Nat.shiftRight_eq_div_pow, Nat.shiftLeft_eq,
    Nat.mod_eq_of_lt (Nat.lt_of_le_of_lt (Nat.div_mul_le_self _ _) a.isLt)]

theorem doubleBase_toNat (a : Word) : (doubleBase a).toNat = a.toNat / 8 * 8 :=
  toNat_and_highMask a 3

theorem k8_eq (a : Word) : k8 a = a.toNat % 8 := Machine.toNat_extract_low a 3

theorem extract_extract {n lo len p : Nat} (w : BitVec n) (hp : p + 8 ≤ len) :
    (w.extractLsb' lo len).extractLsb' p 8 = w.extractLsb' (lo + p) 8 := by
  apply BitVec.eq_of_getLsbD_eq
  intro i hi
  have : p + i < len := by omega
  simp [hi, this, Nat.add_assoc]

/-! ### One memory access, byte by byte (R203 to R206, R208) -/

/-- Two bytes stored, most significant first, and every other byte as before (R204, R208). -/
theorem Memory.read_write16 {m : Memory} (h : m.wf = true) (a : Word) (v : BitVec 16) (b : Word) :
    (m.write16 a v).read b =
      if (b - a).toNat < 2 then v.extractLsb' (8 - 8 * (b - a).toNat) 8 else m.read b := by
  have first : a = b ↔ (b - a).toNat = 0 := by
    simpa using add_eq_iff_sub (a := a) (b := b) (n := 0) (by decide)
  have second : a + 1#32 = b ↔ (b - a).toNat = 1 := add_eq_iff_sub (by decide)
  rw [Memory.write16, Memory.read_write (Memory.wf_write h _ _), Memory.read_write h]
  simp only [first, second]
  generalize (b - a).toNat = n
  by_cases hn : n < 2
  · obtain rfl | rfl : n = 0 ∨ n = 1 := by omega
    all_goals simp
  · rw [if_neg (by omega), if_neg (by omega), if_neg hn]

/-- Byte `j` of a word in memory, byte 0 the most significant (R205, R208). -/
theorem extract_read32 (m : Memory) (a : Word) {j : Nat} (hj : j < 4) :
    (m.read32 a).extractLsb' (24 - 8 * j) 8 = m.read (a + BitVec.ofNat 32 j) := by
  apply BitVec.eq_of_toNat_eq
  unfold Memory.read32
  have b0 := (m.read a).isLt
  have b1 := (m.read (a + 1#32)).isLt
  have b2 := (m.read (a + 2#32)).isLt
  have b3 := (m.read (a + 3#32)).isLt
  obtain rfl | rfl | rfl | rfl : j = 0 ∨ j = 1 ∨ j = 2 ∨ j = 3 := by omega
  all_goals
    simp only [extract_toNat, append_toNat, Nat.mul_zero, BitVec.add_zero]
    omega

theorem sub_add_four_toNat {a b : Word} (h : 4 ≤ (b - a).toNat) :
    (b - (a + 4#32)).toNat = (b - a).toNat - 4 := by
  bv_omega

/-- Byte `n` of the aligned 8-byte word, byte 0 the most significant (R201, R203). -/
theorem extract_readDouble (m : Memory) (a : Word) {b : Word} (h : (b - doubleBase a).toNat < 8) :
    (m.readDouble a).extractLsb' (56 - 8 * (b - doubleBase a).toNat) 8 = m.read b := by
  have at_offset (c : Word) (n : Nat) (hn : n < 2 ^ 32) (hc : (b - c).toNat = n) : c + BitVec.ofNat 32 n = b :=
    (add_eq_iff_sub hn).2 hc
  unfold Memory.readDouble
  by_cases hlow : (b - doubleBase a).toNat < 4
  · rw [BitVec.extractLsb'_append_eq_of_le (by omega),
      show 56 - 8 * (b - doubleBase a).toNat - 32 = 24 - 8 * (b - doubleBase a).toNat by omega,
      extract_read32 m _ hlow, at_offset _ _ (by omega) rfl]
  · have hsub := sub_add_four_toNat (Nat.le_of_not_lt hlow)
    rw [BitVec.extractLsb'_append_eq_of_add_le (by omega),
      show 56 - 8 * (b - doubleBase a).toNat = 24 - 8 * ((b - doubleBase a).toNat - 4) by omega,
      extract_read32 m _ (by omega), at_offset _ _ (by omega) hsub]

/-- The aligned 8-byte word stored, and every other byte as before (R200). -/
theorem Memory.read_writeDouble {m : Memory} (h : m.wf = true) (a : Word) (w : BitVec 64) (b : Word) :
    (m.writeDouble a w).read b =
      if (b - doubleBase a).toNat < 8 then w.extractLsb' (56 - 8 * (b - doubleBase a).toNat) 8 else m.read b := by
  rw [Memory.writeDouble, Memory.read_write32 (Memory.wf_write32 h _ _), Memory.read_write32 h]
  by_cases hlow : (b - doubleBase a).toNat < 4
  · have houtside : ¬ (b - (doubleBase a + 4#32)).toNat < 4 := by bv_omega
    rw [if_neg houtside, if_pos hlow, if_pos (by omega), extract_extract w (by omega)]
    congr 1
    omega
  · rw [sub_add_four_toNat (Nat.le_of_not_lt hlow), if_neg hlow]
    by_cases hhigh : (b - doubleBase a).toNat < 8
    · rw [if_pos (by omega), if_pos hhigh, extract_extract w (by omega)]
      congr 1
      omega
    · rw [if_neg (by omega), if_neg hhigh]

/-! ### Replacing some bits of the 8-byte word (R203 to R205) -/

theorem overlay_getLsbD (lo n : Nat) (v : BitVec n) (w : BitVec 64) {i : Nat} (hi : i < 64) :
    (overlay lo n v w).getLsbD i = if lo ≤ i ∧ i < lo + n then v.getLsbD (i - lo) else w.getLsbD i := by
  unfold overlay
  by_cases hlo : i < lo
  · have : ¬ lo ≤ i := by omega
    simp [hi, hlo, this]
  · by_cases hn : i - lo < n
    · have hend : i < lo + n := by omega
      simp [hi, hlo, hn, hend, Nat.le_of_not_lt hlo]
    · have hend : ¬ i < lo + n := by omega
      simp [hi, hlo, hn, hend, BitVec.getLsbD_of_ge v (i - lo) (Nat.le_of_not_lt hn)]

theorem extract_overlay_inside {lo n p : Nat} (v : BitVec n) (w : BitVec 64) (hlo : lo ≤ p) (hp : p + 8 ≤ lo + n)
    (h64 : lo + n ≤ 64) : (overlay lo n v w).extractLsb' p 8 = v.extractLsb' (p - lo) 8 := by
  apply BitVec.eq_of_getLsbD_eq
  intro i hi
  rw [BitVec.getLsbD_extractLsb', BitVec.getLsbD_extractLsb', overlay_getLsbD lo n v w (by omega),
    if_pos (by omega), Nat.sub_add_comm hlo]

theorem extract_overlay_outside {lo n p : Nat} (v : BitVec n) (w : BitVec 64) (hp : p + 8 ≤ lo ∨ lo + n ≤ p)
    (h64 : p + 8 ≤ 64) : (overlay lo n v w).extractLsb' p 8 = w.extractLsb' p 8 := by
  apply BitVec.eq_of_getLsbD_eq
  intro i hi
  rw [BitVec.getLsbD_extractLsb', BitVec.getLsbD_extractLsb', overlay_getLsbD lo n v w (by omega),
    if_neg (by omega)]

/-! ### An access of `size` bytes inside the aligned 8-byte word -/

/-- The read-modify-write of the 8-byte word changes the bytes of the access and no other (R203 to R205). -/
theorem Memory.read_writeDouble_overlay {m : Memory} {a : Word} {size n lo : Nat} (hn : n = 8 * size)
    (hlo : lo + n + 8 * k8 a = 64) (h : m.wf = true) (v : BitVec n) (b : Word) :
    (m.writeDouble a (overlay lo n v (m.readDouble a))).read b =
      if (b - a).toNat < size then v.extractLsb' (8 * (size - 1) - 8 * (b - a).toNat) 8 else m.read b := by
  have hk := k8_eq a
  have hbase := doubleBase_toNat a
  have hoffset : (b - a).toNat < size →
      (b - doubleBase a).toNat = k8 a + (b - a).toNat := by
    bv_omega
  have houtside : ¬ (b - a).toNat < size → (b - doubleBase a).toNat < 8 →
      (b - doubleBase a).toNat < k8 a ∨ k8 a + size ≤ (b - doubleBase a).toNat := by
    bv_omega
  rw [Memory.read_writeDouble h]
  by_cases hin : (b - a).toNat < size
  · rw [if_pos hin, if_pos (by omega), extract_overlay_inside _ _ (by omega) (by omega) (by omega)]
    congr 1
    omega
  · rw [if_neg hin]
    split
    · next h8 =>
      have := houtside hin h8
      rw [extract_overlay_outside _ _ (by omega) (by omega), extract_readDouble m a h8]
    · rfl

theorem sub_doubleBase_toNat (a : Word) : (a - doubleBase a).toNat = k8 a := by
  have hk := k8_eq a
  have hbase := doubleBase_toNat a
  bv_omega

/-- The bytes from `a` on, where the aligned 8-byte word holds them. -/
theorem extract_readDouble_from (m : Memory) (a : Word) {j : Nat} (hj : k8 a + j < 8) :
    (m.readDouble a).extractLsb' (56 - 8 * (k8 a + j)) 8 = m.read (a + BitVec.ofNat 32 j) := by
  have hoffset : (a + BitVec.ofNat 32 j - doubleBase a).toNat = k8 a + j := by
    have := sub_doubleBase_toNat a
    bv_omega
  rw [← hoffset]
  exact extract_readDouble m a (by omega)

theorem read_eq_getByte (m : Memory) (a : Word) : m.read a = getByte a (m.readDouble a) := by
  have hk := k8_eq a
  have b0 := extract_readDouble_from m a (j := 0) (by omega)
  rw [BitVec.add_zero] at b0
  exact b0.symm

theorem read16_eq_getHalfWord (m : Memory) {a : Word} (ha : a.toNat % 2 = 0) :
    m.read16 a = getHalfWord a (m.readDouble a) := by
  have hk := k8_eq a
  have b0 := extract_readDouble_from m a (j := 0) (by omega)
  have b1 := extract_readDouble_from m a (j := 1) (by omega)
  rw [BitVec.add_zero] at b0
  rw [getHalfWord, Memory.read16, ← b0, ← b1, BitVec.extractLsb'_append_extractLsb'_eq_extractLsb' (by omega)]
  congr 1
  omega

theorem read32_eq_getWord (m : Memory) {a : Word} (ha : a.toNat % 4 = 0) :
    m.read32 a = getWord a (m.readDouble a) := by
  have hk := k8_eq a
  have b0 := extract_readDouble_from m a (j := 0) (by omega)
  have b1 := extract_readDouble_from m a (j := 1) (by omega)
  have b2 := extract_readDouble_from m a (j := 2) (by omega)
  have b3 := extract_readDouble_from m a (j := 3) (by omega)
  rw [BitVec.add_zero] at b0
  rw [getWord, Memory.read32, ← b0, ← b1, ← b2, ← b3,
    BitVec.extractLsb'_append_extractLsb'_eq_extractLsb' (by omega),
    BitVec.extractLsb'_append_extractLsb'_eq_extractLsb' (by omega),
    BitVec.extractLsb'_append_extractLsb'_eq_extractLsb' (by omega)]
  congr 1
  omega

theorem write_eq_setByte {m : Memory} (h : m.wf = true) (a : Word) (v : Byte) :
    m.write a v = m.writeDouble a (setByte a (m.readDouble a) v) := by
  have hk := k8_eq a
  refine Memory.ext_of_read (Memory.wf_write h _ _) (Memory.wf_writeDouble h _ _) fun b => ?_
  have hself : a = b ↔ (b - a).toNat < 1 := by
    rw [Nat.lt_one_iff]
    simpa using add_eq_iff_sub (a := a) (b := b) (n := 0) (by decide)
  rw [setByte, Memory.read_writeDouble_overlay (size := 1) rfl (by omega) h, Memory.read_write h]
  simp only [hself, Nat.sub_self, Nat.mul_zero, Nat.zero_sub, BitVec.extractLsb'_eq_self]

theorem write16_eq_setHalfWord {m : Memory} (h : m.wf = true) {a : Word} (ha : a.toNat % 2 = 0) (v : BitVec 16) :
    m.write16 a v = m.writeDouble a (setHalfWord a (m.readDouble a) v) := by
  have hk := k8_eq a
  refine Memory.ext_of_read (Memory.wf_write16 h _ _) (Memory.wf_writeDouble h _ _) fun b => ?_
  rw [setHalfWord, Memory.read_writeDouble_overlay (size := 2) rfl (by omega) h, Memory.read_write16 h]

theorem write32_eq_setWord {m : Memory} (h : m.wf = true) {a : Word} (ha : a.toNat % 4 = 0) (v : Word) :
    m.write32 a v = m.writeDouble a (setWord a (m.readDouble a) v) := by
  have hk := k8_eq a
  refine Memory.ext_of_read (Memory.wf_write32 h _ _) (Memory.wf_writeDouble h _ _) fun b => ?_
  rw [setWord, Memory.read_writeDouble_overlay (size := 4) rfl (by omega) h, Memory.read_write32 h]

end Sys2Proof

namespace Sys2Proof.Machine

/-! ### The six stores, byte by byte (R653, R654, R670 to R675) -/

theorem getLsbD_ones (i : Nat) : (0xffffffff#32).getLsbD i = decide (i < 32) := BitVec.getLsbD_allOnes

theorem byteOf_getLsbD (v : Word) (j i : Nat) :
    (byteOf v j).getLsbD i = (decide (i < 8) && v.getLsbD (24 - 8 * j + i)) :=
  BitVec.getLsbD_extractLsb' _ _ _ _

theorem mergeSwl_getLsbD (k : Nat) (w v : Word) {i : Nat} (hi : i < 32) :
    (mergeSwl k w v).getLsbD i = if 8 * k + i < 32 then v.getLsbD (8 * k + i) else w.getLsbD i := by
  simp only [mergeSwl, BitVec.getLsbD_or, BitVec.getLsbD_and, BitVec.getLsbD_not, BitVec.getLsbD_ushiftRight,
    getLsbD_ones]
  by_cases hin : 8 * k + i < 32
  · simp [hi, hin]
  · simp [hi, hin, BitVec.getLsbD_of_ge v _ (Nat.le_of_not_lt hin)]

theorem mergeSwr_getLsbD (k : Nat) (w v : Word) {i : Nat} (hi : i < 32) :
    (mergeSwr k w v).getLsbD i = if 8 * (3 - k) ≤ i then v.getLsbD (i - 8 * (3 - k)) else w.getLsbD i := by
  simp only [mergeSwr, BitVec.getLsbD_or, BitVec.getLsbD_and, BitVec.getLsbD_not, BitVec.getLsbD_shiftLeft,
    getLsbD_ones]
  by_cases hin : i < 8 * (3 - k)
  · simp [hi, hin, Nat.not_le_of_lt hin]
  · have hsub : i - 8 * (3 - k) < 32 := by omega
    simp [hi, hin, hsub, Nat.le_of_not_lt hin]

/-- `swl` keeps the bytes of the aligned word before byte `k` (R674). -/
theorem byteOf_mergeSwl {k j : Nat} (hj : j < 4) (w v : Word) :
    byteOf (mergeSwl k w v) j = if k ≤ j then byteOf v (j - k) else byteOf w j := by
  apply BitVec.eq_of_getLsbD_eq
  intro i hi
  rw [byteOf_getLsbD, mergeSwl_getLsbD k w v (by omega)]
  split
  · next hkj =>
    rw [if_pos (by omega), byteOf_getLsbD, show 8 * k + (24 - 8 * j + i) = 24 - 8 * (j - k) + i by omega]
  · next hkj => rw [if_neg (by omega), byteOf_getLsbD]

/-- `swr` keeps the bytes of the aligned word behind byte `k` (R675). -/
theorem byteOf_mergeSwr {k j : Nat} (hj : j < 4) (hk : k < 4) (w v : Word) :
    byteOf (mergeSwr k w v) j = if j ≤ k then byteOf v (3 - (k - j)) else byteOf w j := by
  apply BitVec.eq_of_getLsbD_eq
  intro i hi
  rw [byteOf_getLsbD, mergeSwr_getLsbD k w v (by omega)]
  split
  · next hjk =>
    rw [if_pos (by omega), byteOf_getLsbD, show 24 - 8 * j + i - 8 * (3 - k) = 24 - 8 * (3 - (k - j)) + i by omega]
  · next hjk => rw [if_neg (by omega), byteOf_getLsbD]

theorem wordBase_toNat (a : Word) : (wordBase a).toNat = a.toNat / 4 * 4 := toNat_and_highMask a 2

theorem byteInWord_eq (a : Word) : byteInWord a = a.toNat % 4 := toNat_extract_low a 2

/-- The byte at `b` after its aligned word was replaced: one of the word's own bytes, or as before. -/
theorem read_storeMerged {m : Memory} (h : m.wf = true) (a v b : Word) :
    (m.write32 (wordBase a) v).read b =
      if b.toNat / 4 = a.toNat / 4 then byteOf v (b.toNat % 4) else m.read b := by
  have hbase := wordBase_toNat a
  have hin : (b - wordBase a).toNat < 4 ↔ b.toNat / 4 = a.toNat / 4 := by bv_omega
  rw [Memory.read_write32 h]
  simp only [hin]
  split
  · next hword =>
    have : (b - wordBase a).toNat = b.toNat % 4 := by bv_omega
    rw [this]
    rfl
  · rfl

/-- The bytes of the aligned word of `a`. -/
theorem byteOf_read32_wordBase (m : Memory) {a b : Word} (hb : b.toNat / 4 = a.toNat / 4) :
    byteOf (m.read32 (wordBase a)) (b.toNat % 4) = m.read b := by
  have hbase := wordBase_toNat a
  have hj : b.toNat % 4 < 4 := Nat.mod_lt _ (by decide)
  rw [byteOf, extract_read32 m _ hj]
  congr 1
  bv_omega

theorem read_storeSwl {m : Memory} (h : m.wf = true) (a v b : Word) :
    (storeSwl m a v).read b = (storedByte .swl a v b).getD (m.read b) := by
  rw [storeSwl, read_storeMerged h, byteInWord_eq, storedByte]
  by_cases hword : b.toNat / 4 = a.toNat / 4
  · have hle : a.toNat % 4 ≤ b.toNat % 4 ↔ a.toNat ≤ b.toNat := by omega
    have hsub : b.toNat % 4 - a.toNat % 4 = b.toNat - a.toNat := by omega
    rw [if_pos hword, byteOf_mergeSwl (by omega), byteOf_read32_wordBase m hword, hsub]
    simp only [hword, hle, true_and]
    split <;> rfl
  · simp [hword]

theorem read_storeSwr {m : Memory} (h : m.wf = true) (a v b : Word) :
    (storeSwr m a v).read b = (storedByte .swr a v b).getD (m.read b) := by
  rw [storeSwr, read_storeMerged h, byteInWord_eq, storedByte]
  by_cases hword : b.toNat / 4 = a.toNat / 4
  · have hle : b.toNat % 4 ≤ a.toNat % 4 ↔ b.toNat ≤ a.toNat := by omega
    have hsub : a.toNat % 4 - b.toNat % 4 = a.toNat - b.toNat := by omega
    rw [if_pos hword, byteOf_mergeSwr (by omega) (by omega), byteOf_read32_wordBase m hword, hsub]
    simp only [hword, hle, true_and]
    split <;> rfl
  · simp [hword]

theorem read_storeSb {m : Memory} (h : m.wf = true) (a v b : Word) :
    (storeSb m a v).read b = (storedByte .sb a v b).getD (m.read b) := by
  simp only [storeSb, Memory.read_write h, storedByte, eq_comm (a := b)]
  split <;> rfl

theorem read_storeSh {m : Memory} (h : m.wf = true) (a v b : Word) :
    (storeSh m a v).read b = (storedByte .sh a v b).getD (m.read b) := by
  have distinct : a ≠ a + 1#32 := by bv_omega
  simp only [storeSh, Memory.write16, Memory.read_write (Memory.wf_write h _ _), Memory.read_write h, storedByte,
    eq_comm (a := b), BitVec.extractLsb'_extractLsb'_of_le (show 0 + 8 ≤ 16 by decide),
    BitVec.extractLsb'_extractLsb'_of_le (show 8 + 8 ≤ 16 by decide)]
  by_cases hfirst : a = b
  · subst hfirst
    rw [if_neg distinct.symm, if_pos rfl, if_pos rfl]
    rfl
  · rw [if_neg hfirst, if_neg hfirst]
    split <;> rfl

theorem read_storeWord {m : Memory} (h : m.wf = true) (a v b : Word) :
    (m.write32 a v).read b = (storedByte .sw a v b).getD (m.read b) := by
  rw [Memory.read_write32 h, storedByte]
  split <;> rfl

/-- Every byte after an access of any kind: as stored, or as before. -/
theorem read_storeMem {m : Memory} (h : m.wf = true) (k : MemKind) (a v f b : Word) :
    (storeMem k m a v f).read b = (storedByte k a (if k = .swc1 then f else v) b).getD (m.read b) := by
  cases k
  case sb => exact read_storeSb h a v b
  case sh => exact read_storeSh h a v b
  case sw => exact read_storeWord h a v b
  case swc1 => exact read_storeWord h a f b
  case swl => exact read_storeSwl h a v b
  case swr => exact read_storeSwr h a v b
  all_goals rfl

/-- Whether a store stores to an address does not depend on its data. -/
theorem storedByte_none_iff (k : MemKind) (a b v v' : Word) :
    storedByte k a v b = none ↔ storedByte k a v' b = none := by
  cases k
  case sh =>
    simp only [storedByte]
    split
    · simp
    · split <;> simp
  all_goals simp [storedByte]

/-- What an access leaves unchanged. -/
theorem read_storeMem_outside {m : Memory} (h : m.wf = true) {k : MemKind} {a v f b x : Word}
    (hb : storedByte k a x b = none) : (storeMem k m a v f).read b = m.read b := by
  rw [read_storeMem h, (storedByte_none_iff k a b _ x).2 hb]
  rfl

/-! ### Memory instructions (R650 to R653) -/

/-- The checks of R651 in numbers: a wrong alignment is found first. -/
theorem accessFault_misaligned {k : MemKind} {a : Word} (p : Params) (h : a.toNat % k.alignment ≠ 0) :
    accessFault p k a = some (.misaligned a) := by
  rw [accessFault, if_pos ((misalignedAt_iff k a).2 h)]

theorem accessFault_unmapped {k : MemKind} {a : Word} {p : Params} (h : a.toNat % k.alignment = 0)
    (hm : mapped p a = false) : accessFault p k a = some (.memUnmapped a) := by
  rw [accessFault, if_neg fun hmis => (misalignedAt_iff k a).1 hmis h, if_pos hm]

theorem running_of_exec {i : Instr} {s t : State} (h : exec i s = .next t) : s.status = .running := by
  rw [← isRunning_iff]
  cases hr : s.status.isRunning with
  | false => rw [exec_ended hr] at h; cases h
  | true => rfl

theorem storeMem_load {k : MemKind} (hk : k.isLoad = true) (m : Memory) (a v f : Word) : storeMem k m a v f = m := by
  cases k <;> simp [MemKind.isLoad] at hk <;> rfl

/-- The memory after an access; one equation also for the loads, which store nothing (R450). -/
theorem memAccess_mem (k : MemKind) (m : Record) (s : State) :
    (memAccess k m s).mem = storeMem k s.mem m.addr m.vrt m.vf := by
  unfold memAccess
  split
  · next hk =>
    rw [storeMem_load hk]
    split <;> simp
  · rfl

section memory
variable {i : Instr} {k : MemKind} {rs : RegIx} {offset : Imm16} {s t : State}
  (hi : i.memOperand = some (k, rs, offset))
include hi

/-- The record of a memory instruction holds its effective address (R440, R650). -/
theorem operated_addr : (operated i s).addr = effectiveAddress (s.byp.read rs) offset := by
  obtain ⟨haddr, hrs⟩ := handlerOf_addr (p := s.params) hi
    (makeRecord (.instr i) (handlerOf s.params i) s.ifid .bubble .bubble s)
  rw [operated, haddr, ← hrs]
  rfl

theorem operated_exc : (operated i s).exc = none := by
  cases i <;> simp [Instr.memOperand] at hi <;> rfl

/-- A memory instruction whose run goes on has passed the checks and accessed its address (R651). -/
theorem exec_accesses (h : exec i s = .next t) (ht : t.status = .running) :
    accessFault s.params k (effectiveAddress (s.byp.read rs) offset) = none ∧
      t = commit (memRecord (operated i s) s) (memAccess k (operated i s) s.retired) := by
  rw [exec_mem hi (running_of_exec h)] at h
  cases hf : accessFault s.params k (effectiveAddress (s.byp.read rs) offset) with
  | some f =>
    rw [hf] at h
    cases h
    cases ht
  | none =>
    rw [hf] at h
    cases h
    exact ⟨rfl, rfl⟩

theorem exec_access_mem (h : exec i s = .next t) (ht : t.status = .running) :
    t.mem = storeMem k s.mem (effectiveAddress (s.byp.read rs) offset) (operated i s).vrt (operated i s).vf := by
  rw [(exec_accesses hi h ht).2, commit_mem, memAccess_mem, operated_addr hi]
  rfl

/-- No byte but those stored to changes, whether or not the access faults (R651, R653). -/
theorem exec_mem_frame (hmem : s.mem.wf = true) (h : exec i s = .next t) {b v : Word}
    (hb : storedByte k (effectiveAddress (s.byp.read rs) offset) v b = none) : t.mem.read b = s.mem.read b := by
  rw [exec_mem hi (running_of_exec h)] at h
  split at h
  · cases h
    rfl
  · cases h
    rw [commit_mem, memAccess_mem, operated_addr hi]
    exact read_storeMem_outside hmem hb

end memory

/-- Writeback of a record that is no trap leaves memory (R470). -/
theorem wbState_keeps_mem {w : Record} (hsys : w.isSyscall = false) (s : State) : (wbState w s).mem = s.mem := by
  unfold wbState
  cases w.exc with
  | some x => cases x <;> rfl
  | none =>
    dsimp only
    rw [hsys]
    split
    · rfl
    · split
      · rfl
      · exact commit_mem w s

/-- Only a store record changes memory in the Memory stage (R453). -/
theorem memState_keeps_mem {m : Record} (h : m.isStore = false) (s : State) : (memState m s).mem = s.mem := by
  rw [memState_mem]
  unfold Record.isStore at h
  cases hm : m.mem with
  | none => rfl
  | some k =>
    have hk : k.isLoad = true := by simpa [hm] using h
    simp [hk]

theorem memState_frame_mem {m : Record} {k : MemKind} {s : State} (hm : m.mem = some k) (hmem : s.mem.wf = true)
    {b v : Word} (hb : storedByte k m.addr v b = none) : (memState m s).mem.read b = s.mem.read b := by
  rw [memState_mem, hm]
  dsimp only
  split
  · rfl
  · exact read_storeMem_outside hmem hb

/-! ### An instruction that is no store (R653) -/

theorem flowExecuted_tags (p : Params) (i : Instr) (s : State) :
    SameTags (flowIssued i (handlerOf p i) s) (flowExecuted i (handlerOf p i) s) :=
  exStepRecord_flowIssued p i s ▸ exStepRecord_tags p _

/-- A record that is refused is no trap any more (R428). -/
theorem flowAccessed_noTrap {i : Instr} {s : State} (ht : i.isTrap s.params.breakMode = false) :
    (flowAccessed i (handlerOf s.params i) s).isSyscall = false := by
  rw [flowAccessed, memRecord_isSyscall, (flowExecuted_tags _ _ _).isSyscall]
  rcases flowIssued_cases i (handlerOf s.params i) s with he | he <;> rw [he]
  · rfl
  · exact (handlerOf_isSyscall s.params i).trans ht

theorem flowExecuted_noStore {i : Instr} {s : State} (hi : i.stores = false) :
    (flowExecuted i (handlerOf s.params i) s).isStore = false := by
  rw [Record.isStore, (flowExecuted_tags _ _ _).mem]
  rcases flowIssued_cases i (handlerOf s.params i) s with he | he <;> rw [he]
  · rfl
  · exact (handlerOf_isStore s.params i).trans hi

theorem exec_noStore_mem {i : Instr} {s t : State} (h : exec i s = .next t)
    (ht : i.isTrap s.params.breakMode = false) (hi : i.stores = false) : t.mem = s.mem := by
  rw [exec_next h, wbState_keeps_mem (flowAccessed_noTrap ht), flowMemoryState,
    memState_keeps_mem (flowExecuted_noStore hi), (flowExecuteState_sameArch _ _ _).mem]

/-! ### A load after a store (R210) -/

/-- Byte `j` of a word just stored. -/
theorem read_stored_word {m : Memory} (h : m.wf = true) (a v : Word) {j : Nat} (hj : j < 4) :
    (m.write32 a v).read (a + BitVec.ofNat 32 j) = v.extractLsb' (24 - 8 * j) 8 := by
  have hoffset : (a + BitVec.ofNat 32 j - a).toNat = j := (add_eq_iff_sub (by omega)).1 rfl
  rw [Memory.read_write32 h, hoffset, if_pos hj]

/-- Halfword `j` of a word just stored. -/
theorem read16_stored_word {m : Memory} (h : m.wf = true) (a v : Word) {j : Nat} (hj : j < 2) :
    (m.write32 a v).read16 (a + BitVec.ofNat 32 (2 * j)) = v.extractLsb' (16 - 16 * j) 16 := by
  have hnext : a + BitVec.ofNat 32 (2 * j) + 1#32 = a + BitVec.ofNat 32 (2 * j + 1) := by
    rw [BitVec.add_assoc, BitVec.ofNat_add]
  rw [Memory.read16, hnext, read_stored_word h a v (by omega), read_stored_word h a v (by omega),
    BitVec.extractLsb'_append_extractLsb'_eq_extractLsb' (by omega)]
  congr 1
  omega

theorem memRecord_load {m : Record} {k : MemKind} {s : State} (hm : m.mem = some k) (hx : m.exc = none)
    (hf : accessFault s.params k m.addr = none) (hk : k.isLoad = true) :
    memRecord m s = { m with loadVal := loadValue k s.mem m.addr m.vrt } := by
  simp [memRecord, hm, hx, hf, hk]

/-- A load that completes leaves its value in the committed copy of its destination (R452, R470). -/
theorem exec_load_gpr {i : Instr} {k : MemKind} {rs r : RegIx} {offset : Imm16} {s t : State}
    (hi : i.memOperand = some (k, rs, offset)) (hk : k.isLoad = true) (hr : i.gprDest = some r)
    (h : exec i s = .next t) (ht : t.status = .running) :
    t.gpr = s.gpr.write r
      (loadValue k s.mem (effectiveAddress (s.byp.read rs) offset) (operated i s).vrt) := by
  obtain ⟨hf, rfl⟩ := exec_accesses hi h ht
  have tags := handlerOf_tags s.params i (makeRecord (.instr i) (handlerOf s.params i) s.ifid .bubble .bubble s)
  have hdst : (operated i s).dst = .gpr r := by
    rw [operated, tags.dst]
    exact (handlerOf_dst s.params i).trans (by simp [instrDst, hr])
  have hmem : (operated i s).mem = some k := by
    rw [operated, tags.mem]
    exact (handlerOf_mem s.params i).trans (by simp [hi])
  rw [← operated_addr hi] at hf ⊢
  rw [memRecord_load hmem (operated_exc hi) hf hk]
  simp [commit, hdst, Record.result, Record.isLoad, hmem, hk, State.retired]

/-! ### The cycle (R402, R403) -/

/-- In a cycle with no trap in Writeback the memory changes at most by the Memory stage. -/
theorem cycle_mem_noTrap {s : State} (hsys : s.memwb.isSyscall = false) :
    (cycle s).mem = s.mem ∨ ∃ x : State, x.mem = s.mem ∧ (cycle s).mem = (memState s.exmem x).mem := by
  have hwb := wbState_keeps_mem hsys s
  rw [cycle_mem]
  split
  · exact .inr ⟨exStepState s.idex (wbState s.memwb s), (exStepState_sameArch _ _).mem.trans hwb, rfl⟩
  · exact .inl hwb

/-- A fetch without a fault holds the word in memory at its address (R230, R481). -/
theorem fetchEntry_ins {s : State} (h : s.fetchEntry.ffault = none) :
    s.fetchEntry.ins = s.mem.read32 s.fetchEntry.insPC := by
  unfold State.fetchEntry at h ⊢
  split
  · next hmis => simp [hmis] at h
  · next hmis =>
    split
    · next hmapped => simp [hmis, hmapped] at h
    · rfl

end Sys2Proof.Machine

namespace Sys2Proof.Proofs

open Sys2Proof.Machine

/-- Settles O24: of the two checks before the access, the alignment is asked first; a record they mark has no
effect. -/
theorem accessFaults : Obligations.AccessFaults := by
  unfold Obligations.AccessFaults
  intro i k rs offset hi s hs
  refine ⟨fun hmis => ?_, fun halign hunmapped => ?_⟩
  · rw [exec_mem hi hs, effectiveAddress, simm, accessFault_misaligned _ hmis]
    rfl
  · rw [exec_mem hi hs, effectiveAddress, simm, accessFault_unmapped halign hunmapped]
    rfl

/-- Settles O26: only the Memory stage of a store changes memory, and there only the bytes stored to. -/
theorem memoryFrame : Obligations.MemoryFrame := by
  unfold Obligations.MemoryFrame
  intro i s t h ht hmem
  refine ⟨fun hi b => by rw [exec_noStore_mem h ht hi], fun k rs offset hi b v hb => ?_⟩
  exact exec_mem_frame hi hmem h hb

/-- Settles O28: a read takes the bytes of the access out of the 8-byte word; a write leaves memory reading,
byte by byte, as the read-modify-write does. -/
theorem accessesAreDoublewordAccesses : Obligations.AccessesAreDoublewordAccesses := by
  unfold Obligations.AccessesAreDoublewordAccesses
  intro m a h
  exact ⟨⟨read_eq_getByte m a, write_eq_setByte h a⟩,
    fun ha => ⟨read16_eq_getHalfWord m ha, write16_eq_setHalfWord h ha⟩,
    fun ha => ⟨read32_eq_getWord m ha, write32_eq_setWord h ha⟩⟩

/-- Settles O29: `sw` leaves the word in memory, the load leaves what it reads there in its register, and a
read of the stored word gives its bytes. -/
theorem mixedWidthAccesses : Obligations.MixedWidthAccesses := by
  unfold Obligations.MixedWidthAccesses
  intro s t u rt rs r b offset o j hmem hsw ht hr a v
  have hword : t.mem = s.mem.write32 a v := exec_access_mem (i := .sw rt offset rs) rfl hsw ht
  refine ⟨fun hj haddr hload hu => ?_, fun hj haddr hload hu => ?_⟩
  · rw [exec_load_gpr (i := .lbu r o b) rfl rfl rfl hload hu, RegFile.read_write_same _ _ _ hr, haddr, hword]
    exact congrArg (BitVec.zeroExtend 32) (read_stored_word hmem a v hj)
  · rw [exec_load_gpr (i := .lhu r o b) rfl rfl rfl hload hu, RegFile.read_write_same _ _ _ hr, haddr, hword]
    exact congrArg (BitVec.zeroExtend 32) (read16_stored_word hmem a v hj)

/-- Settles O47: Writeback commits to registers, and the store in EXMEM is the only other writer. -/
theorem onlyTheMemoryStageStores : Obligations.OnlyTheMemoryStageStores := by
  unfold Obligations.OnlyTheMemoryStageStores
  intro s t hmem hst hsys
  obtain ⟨-, rfl⟩ := step_next hst
  rcases cycle_mem_noTrap hsys with hkept | ⟨x, hx, hstage⟩
  · rw [hkept]
    exact ⟨fun _ => rfl, fun _ _ _ _ => rfl⟩
  · rw [hstage, ← hx]
    rw [← hx] at hmem
    exact ⟨fun hno => memState_keeps_mem hno x, fun k hk b hb => memState_frame_mem hk hmem (hb 0#32)⟩

/-- Settles O51: of the cases of the fetch step, one leaves the waiting entry, one leaves none, and one
fetches from the memory that the cycle leaves. -/
theorem fetchSeesTheStores : Obligations.FetchSeesTheStores := by
  unfold Obligations.FetchSeesTheStores
  intro s t hst hrun hvalid hfault
  obtain ⟨-, rfl⟩ := step_next hst
  have hr := goesOn_of_running hrun
  cases fetch_cases hr with
  | held _ hifid => exact .inl hifid
  | gated _ _ hifid =>
    rw [hifid] at hvalid
    cases hvalid
  | fetched _ _ _ _ hifid =>
    rw [hifid] at hfault ⊢
    rw [cycle_mem, if_pos hr]
    exact .inr (fetchEntry_ins hfault)

/-- Settles O4: the four bytes join to the word, and no other list of bytes has the decoder's shape. -/
theorem instructionBytesAreBigEndian : Obligations.InstructionBytesAreBigEndian := by
  unfold Obligations.InstructionBytesAreBigEndian
  refine ⟨wordOfBytes_bytesOfWord, fun l hl => ?_⟩
  unfold decodeBytes
  split
  · exact absurd rfl hl
  · rfl

end Sys2Proof.Proofs

/-! PROOFS, family 30_encoding: decoding an encoded instruction gives it back (O1), which words are illegal
(O2), labels are reached (O5), what a trap leaves (O21), and the halts of an illegal operation (O43, O22). -/

namespace Sys2Proof

/-! ### Encoding, then decoding (R301 to R314) -/

section
variable (rs rt rd sh : BitVec 5) (fn : BitVec 6) (imm : Imm16)

@[simp] theorem decode_special :
    decode (rFormat 0x00#6 rs rt rd sh fn) = decodeSpecial (rFormat 0x00#6 rs rt rd sh fn) := by
  simp [decode]

@[simp] theorem decode_regimm :
    decode (iFormat 0x01#6 rs rt imm) = decodeRegimm (iFormat 0x01#6 rs rt imm) := by
  simp [decode]

@[simp] theorem decode_cop1 :
    decode (rFormat 0x11#6 rs rt rd sh fn) = decodeCop1 (rFormat 0x11#6 rs rt rd sh fn) := by
  simp [decode]

end

/-- Each map reads back the fields its instructions are encoded in; a shift amount fits its field because the
instruction is well formed (R307). -/
theorem decode_encode {i : Instr} (h : i.wellFormed = true) : decode (encode i) = .ok i := by
  cases i
  case sll rd rt n | srl rd rt n | sra rd rt n =>
    have hn : n < 32 := of_decide_eq_true h
    simpa [encode, special, decodeSpecial] using hn
  case sllv | srlv | srav | jr | jalr | syscall | brk | mfhi | mthi | mflo | mtlo | mult | multu | div | divu | add
      | addu | sub | subu | and | or | xor | nor | slt | sltu =>
    simp [encode, special, decodeSpecial]
  case bltz | bgez | bltzal | bgezal => simp [encode, decodeRegimm]
  case mfc1 | mtc1 => simp [encode, decodeCop1]
  all_goals simp [encode, decode]

/-! ### What decodes is well formed (R307) -/

theorem decodeSpecial_wellFormed {w : Word} {i : Instr} (h : decodeSpecial w = .ok i) : i.wellFormed = true := by
  unfold decodeSpecial at h
  split at h <;> cases h
  case h_1 | h_2 | h_3 => exact decide_eq_true (shamtOf w).isLt
  all_goals rfl

theorem decodeRegimm_wellFormed {w : Word} {i : Instr} (h : decodeRegimm w = .ok i) : i.wellFormed = true := by
  unfold decodeRegimm at h
  split at h <;> cases h <;> rfl

theorem decodeCop1_wellFormed {w : Word} {i : Instr} (h : decodeCop1 w = .ok i) : i.wellFormed = true := by
  unfold decodeCop1 at h
  split at h <;> cases h <;> rfl

theorem decode_wellFormed {w : Word} {i : Instr} (h : decode w = .ok i) : i.wellFormed = true := by
  unfold decode at h
  split at h
  case h_1 => exact decodeSpecial_wellFormed h
  case h_2 => exact decodeRegimm_wellFormed h
  case h_17 => exact decodeCop1_wellFormed h
  case h_32 => cases h
  all_goals cases h; rfl

/-! ### The rows of the maps (R311 to R314, R320) -/

theorem decodeSpecial_ok_iff (w : Word) : (∃ i, decodeSpecial w = .ok i) ↔
    (functOf w).toNat ∈ [0x00, 0x02, 0x03, 0x04, 0x06, 0x07, 0x08, 0x09, 0x0c, 0x0d, 0x10, 0x11, 0x12, 0x13, 0x18,
      0x19, 0x1a, 0x1b, 0x20, 0x21, 0x22, 0x23, 0x24, 0x25, 0x26, 0x27, 0x2a, 0x2b] := by
  unfold decodeSpecial
  split
  case h_29 => simp_all
  all_goals simp [*]

theorem decodeRegimm_ok_iff (w : Word) :
    (∃ i, decodeRegimm w = .ok i) ↔ (rtOf w).toNat ∈ [0x00, 0x01, 0x10, 0x11] := by
  unfold decodeRegimm
  split
  case h_5 => simp_all
  all_goals simp [*]

theorem decodeCop1_ok_iff (w : Word) : (∃ i, decodeCop1 w = .ok i) ↔ (rsOf w).toNat ∈ [0x00, 0x04] := by
  unfold decodeCop1
  split
  case h_3 => simp_all
  all_goals simp [*]

theorem decode_ok_iff (w : Word) : (∃ i, decode w = .ok i) ↔
    ((opcodeOf w).toNat = 0x00 ∧ ∃ i, decodeSpecial w = .ok i) ∨
      ((opcodeOf w).toNat = 0x01 ∧ ∃ i, decodeRegimm w = .ok i) ∨
      ((opcodeOf w).toNat = 0x11 ∧ ∃ i, decodeCop1 w = .ok i) ∨
      (opcodeOf w).toNat ∈ [0x02, 0x03, 0x04, 0x05, 0x06, 0x07, 0x08, 0x09, 0x0a, 0x0b, 0x0c, 0x0d, 0x0e, 0x0f,
        0x20, 0x21, 0x22, 0x23, 0x24, 0x25, 0x26, 0x28, 0x29, 0x2a, 0x2b, 0x2e, 0x31, 0x39] := by
  unfold decode
  split
  case h_1 h | h_2 h | h_17 h => simp [h]
  case h_32 => simp_all
  all_goals simp [*]

end Sys2Proof

namespace Sys2Proof.Machine

/-! ### Labels (R305, R306, R341) -/

theorem toNat_mod_four_of_low {a : Word} (h : a.extractLsb' 0 2 = 0#2) : a.toNat % 4 = 0 :=
  (toNat_extract_low a 2).symm.trans (congrArg BitVec.toNat h)

/-- A multiple of 4 that fits in 18 signed bits is its bits 17:2, sign-extended and shifted back (R305). -/
theorem simm_extract_shift {d : Word} (hlow : d.extractLsb' 0 2 = 0#2) (hmin : -(2 ^ 17) ≤ d.toInt)
    (hmax : d.toInt < 2 ^ 17) : simm (d.extractLsb' 2 16) <<< 2 = d := by
  have hmod := toNat_mod_four_of_low hlow
  have hfield := extract_toNat d 2 16
  have hlt := d.isLt
  rw [BitVec.toInt_eq_toNat_cond] at hmin hmax
  apply BitVec.eq_of_toNat_eq
  rw [simm, BitVec.toNat_shiftLeft, BitVec.toNat_signExtend, BitVec.toNat_setWidth, BitVec.msb_eq_decide, hfield,
    Nat.shiftLeft_eq]
  simp only [decide_eq_true_eq]
  split at hmin <;> split <;> omega

theorem branchTarget_branchField {insPC label : Word} (h : branchReaches insPC label = true) :
    branchTarget insPC (branchField insPC label) = label := by
  simp only [branchReaches, Bool.and_eq_true, decide_eq_true_eq] at h
  obtain ⟨⟨hlow, hmin⟩, hmax⟩ := h
  rw [branchTarget, branchField, simm_extract_shift hlow hmin hmax, BitVec.add_comm, BitVec.sub_add_cancel]

/-- The region bits, the field and two zeros are the label's own bits (R306). -/
theorem jumpTarget_jumpField {insPC label : Word} (h : jumpReaches insPC label = true) :
    jumpTarget insPC (jumpField label) = label := by
  simp only [jumpReaches, Bool.and_eq_true, decide_eq_true_eq] at h
  obtain ⟨hlow, hregion⟩ := h
  have hmod := toNat_mod_four_of_low hlow
  have hlt := label.isLt
  apply BitVec.eq_of_toNat_eq
  rw [jumpTarget, ← hregion, jumpField]
  simp only [append_toNat, extract_toNat, BitVec.toNat_ofNat]
  omega

/-! ### A trap that runs alone (R810 to R814) -/

/-- What a trap leaves, `r` being the emulator's answer: what the emulator wrote is in place, and the run ends
or fetch resumes (R812 to R814). -/
def State.trapped (s : State) (r : SysReply) : State :=
  let t := { s.retired with
    gpr := s.gpr.writeAll r.regs
    mem := s.mem.writeAll r.bytes
    os := r.os
    sysReplies := s.sysReplies.tail
    ifid := .empty }
  if r.leaves then { t with status := .exited, pc := s.pc + 4#32, syscallStall := true }
  else { t with
    pc := if s.params.syscallResume = .after then s.pc else s.ifid.insPC
    byp := s.gpr.writeAll r.regs
    syscallStall := false }

/-- The state a trap that runs alone meets in Writeback: the word behind it has been fetched, which moved `pc`
and the counter, and discarded (R429, R484). -/
def State.behindTrap (s : State) : State :=
  { s.retired with
    syscallStall := true
    ifid := .empty
    pc := s.pc + 4#32
    nfetched := s.nfetched + 1 }

theorem handlerOf_trap {p : Params} {i : Instr} (hi : i = .syscall ∨ i = .brk)
    (ht : i.isTrap p.breakMode = true) : handlerOf p i = trapHandler := by
  rcases hi with rfl | rfl
  · rfl
  · have hmode : p.breakMode = .trap := of_decide_eq_true ht
    simp [handlerOf, handleBrk, hmode]

/-- The fetch behind a trap that no gate holds back (R480, R484). -/
theorem trapFetch_fetches {r : Record} {s : State} (hsys : r.isSyscall = true) (hbud : s.budgetSpent = false) :
    trapFetch false r s = { s with ifid := .empty, pc := s.pc + 4#32, nfetched := s.nfetched + 1 } := by
  simp [trapFetch, ifState, hsys, hbud]

theorem flowIssueState_trap {i : Instr} {h : Handler} {s : State} (hsys : (flowIssued i h s).isSyscall = true)
    (hct : (flowIssued i h s).isCT = false) (hgate : s.branchStall = false) (hbud : s.budgetSpent = false) :
    (flowIssueState i h s).clearWflag = s.behindTrap := by
  have issue : issueState (.instr i) h s.ifid .bubble .bubble s =
      { s with bdPending := false, syscallStall := true } := by
    rw [flowIssued] at hsys hct
    simp [issueState, State.countDraw, State.afterIssue, hsys, hct]
  rw [flowIssueState, issue, hgate, trapFetch_fetches hsys (by exact hbud)]
  rfl

/-- Under `after` the trap takes back the word that the fetch behind it moved `pc` by (R814). -/
theorem behindTrap_resumePC {s : State} {w : Record} (hpc : w.insPC = s.ifid.insPC) :
    s.behindTrap.resumePC w = if s.params.syscallResume = .after then s.pc else s.ifid.insPC := by
  have mode : s.behindTrap.params.syscallResume = s.params.syscallResume := rfl
  rw [State.resumePC, mode]
  cases s.params.syscallResume with
  | after => exact BitVec.add_sub_cancel s.pc 4#32
  | replay => exact hpc

/-- The trap undoes the fetch behind it and resumes, or ends the run (R810, R814). -/
theorem behindTrap_trapWith {s : State} {w : Record} (hpc : w.insPC = s.ifid.insPC) (r : SysReply) :
    s.behindTrap.trapWith w r = s.trapped r := by
  unfold State.trapWith State.trapped
  dsimp only
  split
  · rfl
  · rw [← behindTrap_resumePC hpc]
    rfl

/-- The effect of a trap outside a delay slot, with the word behind it fetched (R810 to R814). -/
theorem exec_traps {i : Instr} {s : State} (hi : i = .syscall ∨ i = .brk) (hs : s.status = .running)
    (hbd : s.bdPending = false) (hgate : s.branchStall = false) (hbud : s.budgetSpent = false)
    (ht : i.isTrap s.params.breakMode = true) :
    exec i s = .next (s.trapped (s.sysReply (makeRecord (.instr i) trapHandler s.ifid .bubble .bubble s))) := by
  have issued : flowIssued i trapHandler s = makeRecord (.instr i) trapHandler s.ifid .bubble .bubble s :=
    flowIssued_ok (.inl hbd)
  rw [exec_eq_runAlone, handlerOf_trap hi ht, runAlone_skips hs (by rw [issued]; rfl) (by rw [issued]; rfl),
    flowIssueState_trap (by rw [issued]; rfl) (by rw [issued]; rfl) hgate hbud, issued,
    wbState_trap _ _ rfl rfl rfl rfl, State.trap, behindTrap_trapWith rfl]
  rfl

/-! ### A record without effect on its way to Writeback (R401, R404) -/

theorem pipelineEmpty_of_record {x : State} {r : Record} (hr : r.isBubble = false)
    (h : x.idex = r ∨ x.exmem = r ∨ x.memwb = r) : x.pipelineEmpty = false := by
  rcases h with h | h | h <;> simp [State.pipelineEmpty, h, hr]

section
variable {x : State} {r : Record} (hx : x.status = .running) (hmemwb : x.memwb = .bubble)
include hx hmemwb

theorem cycle_skips_execute (hidex : x.idex = r) (hskip : r.skipsExecute = true) : (cycle x).exmem = r := by
  rw [goesOn_exmem (goesOn_of_bubble hx hmemwb), exStepRecord, exRecord, hidex, if_pos hskip]

/-- With nothing in Writeback and no access in Memory, a cycle changes nothing that an instruction can commit
to, and the run goes on where something is in flight. -/
theorem cycle_no_access (hexmem : x.exmem = r) (hmem : r.mem = none) :
    (cycle x).memwb = r ∧ ((cycle x).pipelineEmpty = false → SameArch (cycle x) x) := by
  refine ⟨?_, fun hp => ?_⟩
  · rw [goesOn_memwb (goesOn_of_bubble hx hmemwb), memOut, hexmem, memRecord, hmem]
  · have arch := cycle_bubble_writeback hx hmemwb hp
    rwa [hexmem, memState, hmem] at arch

end

/-- Three cycles bring a record that Execute skips and that accesses no memory from Decode to Writeback; nothing
is committed meanwhile. -/
theorem stepN_three_no_effect {s : State} {r : Record} (hq : s.quiescent) (hr : (idOut s).record = r)
    (hb : r.isBubble = false) (hskip : r.skipsExecute = true) (hmem : r.mem = none) :
    ∃ u, stepN 3 s = .next u ∧ u.memwb = r ∧ SameArch u s := by
  obtain ⟨hs, hidex, hexmem, hmemwb, -⟩ := hq
  have idex₁ : (cycle s).idex = r := (goesOn_idex (goesOn_of_bubble hs hmemwb)).trans hr
  have exmem₁ := cycle_skips_execute hs hmemwb hidex rfl
  obtain ⟨memwb₁, arch₁⟩ := cycle_no_access hs hmemwb hexmem rfl
  replace arch₁ := arch₁ (pipelineEmpty_of_record hb (.inl idex₁))
  have hs₁ := arch₁.status.trans hs
  have exmem₂ := cycle_skips_execute hs₁ memwb₁ idex₁ hskip
  obtain ⟨memwb₂, arch₂⟩ := cycle_no_access hs₁ memwb₁ exmem₁ rfl
  replace arch₂ := arch₂ (pipelineEmpty_of_record hb (.inr (.inl exmem₂)))
  have hs₂ := arch₂.status.trans hs₁
  obtain ⟨memwb₃, arch₃⟩ := cycle_no_access hs₂ memwb₂ exmem₂ hmem
  replace arch₃ := arch₃ (pipelineEmpty_of_record hb (.inr (.inr memwb₃)))
  refine ⟨cycle (cycle (cycle s)), ?_, memwb₃, (arch₃.trans arch₂).trans arch₁⟩
  rw [stepN_succ hs, stepN_succ hs₁, stepN_succ hs₂, stepN]

/-! ### An illegal word (R320, R412) -/

/-- With nothing in flight a waiting word is issued, whatever it is (R410, R427). -/
theorem quiescent_issues {s : State} (hq : s.quiescent) (hvalid : s.ifid.valid = true)
    (hfault : s.ifid.ffault = none) : s.Issues := by
  obtain ⟨-, hidex, hexmem, hmemwb, hstall, -, hgate⟩ := hq
  have hmem : memOut s = .bubble := by rw [memOut, hexmem, memRecord_bubble]
  have hex : exStepRecord s.params s.idex = .bubble := by rw [hidex]; rfl
  refine issues_of_noHazard ?_ hstall hvalid hfault ?_
  · rw [afterMemory_syscallStall, hmemwb, wbState_bubble, hgate]
  · rw [hmem, hex, hmemwb, hazard_bubbles]

/-- The record that Decode makes of a word that decodes to nothing (R412). -/
structure Record.IllegalAt (r : Record) (d : FetchLatch) : Prop where
  op : r.op = .illegal
  ins : r.ins = d.ins
  insPC : r.insPC = d.insPC
  isIllegal : r.isIllegal = true
  exc : r.exc = none
  mem : r.mem = none

theorem Record.IllegalAt.isBubble {r : Record} {d : FetchLatch} (h : r.IllegalAt d) : r.isBubble = false := by
  simp [Record.isBubble, h.op]

theorem Record.IllegalAt.skipsExecute {r : Record} {d : FetchLatch} (h : r.IllegalAt d) :
    r.skipsExecute = true := by
  simp [Record.skipsExecute, h.isIllegal]

theorem issued_illegal {s : State} {e : Reject} (hdec : decode s.ifid.ins = .error e) :
    s.issued.IllegalAt s.ifid := by
  have hop : entryOp s.ifid.ins = .illegal := by simp [entryOp, hdec]
  rw [State.issued, State.entryHandler, hop]
  constructor <;> simp [opHandler, issueRecord, illegalHandler, makeRecord]

/-- In Writeback such a record ends the run in that cycle, without effect (R404, R808). -/
theorem cycle_halts {u : State} {d : FetchLatch} (h : u.memwb.IllegalAt d) :
    cycle u = u.setStatus (.halted u.memwb) := by
  have halts := wbState_halted _ u h.exc h.isBubble h.isIllegal
  rw [cycle_ends (by rw [halts]; rfl), halts]

end Sys2Proof.Machine

namespace Sys2Proof.Proofs

open Sys2Proof.Machine

/-- Settles O1: each instruction is encoded in the fields that its map reads. -/
theorem decodeEncodeAgree : Obligations.DecodeEncodeAgree := by
  unfold Obligations.DecodeEncodeAgree
  exact fun _ => decode_encode

/-- Settles O2, map by map; what decodes is well formed. -/
theorem illegalEncodingsAreTheRest : Obligations.IllegalEncodingsAreTheRest := by
  unfold Obligations.IllegalEncodingsAreTheRest
  intro w
  have wellFormed : (∃ i, decode w = .ok i ∧ i.wellFormed = true) ↔ ∃ i, decode w = .ok i :=
    exists_congr fun i => and_iff_left_of_imp decode_wellFormed
  refine ⟨?_, ?_⟩
  · rw [wellFormed, decode_ok_iff, decodeSpecial_ok_iff, decodeRegimm_ok_iff, decodeCop1_ok_iff]
  · cases decode w <;> simp

/-- Settles O5: the field keeps every bit of the offset, or of the label, that is not known from elsewhere. -/
theorem labelsAreReached : Obligations.LabelsAreReached := by
  unfold Obligations.LabelsAreReached
  exact fun _ _ => ⟨branchTarget_branchField, jumpTarget_jumpField⟩

/-- Settles O21: Decode fetches and discards the word behind, Writeback runs the emulator and undoes that fetch. -/
theorem trapResults : Obligations.TrapResults := by
  unfold Obligations.TrapResults
  refine ⟨fun rs rt rd shamt => ⟨?_, ?_⟩, fun i hi s hs hbd hgate hbud ht => exec_traps hi hs hbd hgate hbud ht⟩
  · simp [decodeSpecial]
  · simp [decodeSpecial]

/-- Settles O22: `break` has the handler of an illegal word there. -/
theorem breakCanBeIllegal : Obligations.BreakCanBeIllegal := by
  unfold Obligations.BreakCanBeIllegal
  intro s hs hmode
  exact ⟨_, exec_halts hs hmode, rfl, rfl, rfl⟩

/-- Settles O43: Decode makes an illegal record of the word, three cycles bring it to Writeback without effect,
and there it ends the run. -/
theorem illegalWordsHalt : Obligations.IllegalWordsHalt := by
  unfold Obligations.IllegalWordsHalt
  intro s e hq hvalid hfault hdec
  have illegal := issued_illegal hdec
  obtain ⟨u, hu, hmemwb, arch⟩ := stepN_three_no_effect hq (quiescent_issues hq hvalid hfault).record
    illegal.isBubble illegal.skipsExecute illegal.mem
  obtain ⟨hs, -⟩ := hq
  rw [← hmemwb] at illegal
  refine ⟨cycle u, u.memwb, ?_, ?_⟩
  · rw [stepN_succ_right hu, step_running ((isRunning_iff _).2 (arch.status.trans hs))]
  · rw [cycle_halts illegal, ← arch.gpr]
    exact ⟨rfl, illegal.op, illegal.ins, illegal.insPC, rfl, arch.fpr, arch.hi, arch.lo, arch.mem, arch.os, rfl, rfl⟩

end Sys2Proof.Proofs

/-! PROOFS, family 40_pipeline: how long an instruction waits and what it then reads (O32, O35, O36, O38), issue
and fetch (O39, O41, O56), branches and their delay slots (O23, O49, O50), the ways a run ends (O42, O44, O53), the
table of R421 (O33), and `lwc1` (O18). -/

namespace Sys2Proof.Machine

/-! ### The number of bubbles (R422 to R427) -/

theorem hits_hilo_iff (d : Dst) : d.hits .hilo = true ↔ ∃ a b, d = .hilo a b := by
  cases d <;> simp [Dst.hits]

/-- A destination matches a source set without Hi/Lo by a general register other than r0 or by a floating-point
register (R425). -/
theorem hitsAny_iff {d : Dst} {sources : List Src} (hno : Src.hilo ∉ sources) :
    d.hitsAny sources = true ↔
      (∃ j, j ≠ 0#5 ∧ d = .gpr j ∧ Src.g j ∈ sources) ∨ ∃ j, d = .fpr j ∧ Src.f j ∈ sources := by
  rw [Dst.hitsAny, List.any_eq_true]
  constructor
  · rintro ⟨x, hx, hd⟩
    cases x with
    | g j => exact .inl ⟨j, by simp_all [Dst.hits]⟩
    | f j => exact .inr ⟨j, by simp_all [Dst.hits]⟩
    | hilo => exact absurd hx hno
  · rintro (⟨j, hj, hd, hx⟩ | ⟨j, hd, hx⟩)
    · exact ⟨_, hx, by simp [Dst.hits, hd, hj]⟩
    · exact ⟨_, hx, by simp [Dst.hits, hd]⟩

/-- Only `mfhi` and `mflo` read Hi/Lo, and they read nothing else (R421). -/
theorem sources_mfhi_mflo {p : Params} {i : Instr} {rd : RegIx} (hi : i = .mfhi rd ∨ i = .mflo rd) :
    (handlerOf p i).sources = [.hilo] := by
  rcases hi with rfl | rfl <;> rfl

theorem hilo_not_source {p : Params} {i : Instr} (hi : ∀ rd, i ≠ .mfhi rd ∧ i ≠ .mflo rd) :
    Src.hilo ∉ (handlerOf p i).sources := by
  cases i
  case mfhi rd => exact absurd rfl (hi rd).1
  case mflo rd => exact absurd rfl (hi rd).2
  case brk => simp only [handlerOf, handleBrk]; cases p.breakMode <;> exact List.not_mem_nil
  case j | jal | syscall | lui => exact List.not_mem_nil
  all_goals nofun

section hazard
variable {h : Handler} (e m w : Record)

/-- Of the three rules only that of Hi/Lo applies to an instruction that reads Hi/Lo alone (R423). -/
theorem hazard_hilo (hstore : h.isStore = false) (hsrc : h.sources = [.hilo]) :
    hazard h e m w = if e.dst.hits .hilo then 4 else if m.dst.hits .hilo then 3
      else if w.dst.hits .hilo then 2 else 0 := by
  have huse : loadUseHazard h e = if e.isLoad && e.dst.hits .hilo then 2 else 0 := by
    simp [loadUseHazard, Dst.hitsAny, hsrc, Config.loadUseStall]
  simp only [hazard, huse, hiloHazard, storeHazard, hstore, hsrc, List.mem_singleton, Config.hiloStallE,
    Config.hiloStallM, Config.hiloStallW]
  cases e.isLoad <;> cases e.dst.hits .hilo <;> simp

variable (hno : Src.hilo ∉ h.sources)
include hno

/-- For a store the store rule asks for at least what the load-use rule asks for (R424). -/
theorem hazard_store (hstore : h.isStore = true) :
    hazard h e m w = if e.dst.hitsAny h.sources then 4 else if m.dst.hitsAny h.sources then 3
      else if w.dst.hitsAny h.sources then 2 else 0 := by
  simp only [hazard, loadUseHazard, hiloHazard, storeHazard, hstore, hno, Config.loadUseStall, Config.storeStallE,
    Config.storeStallM, Config.storeStallW]
  cases e.isLoad <;> cases e.dst.hitsAny h.sources <;> simp

theorem hazard_plain (hstore : h.isStore = false) : hazard h e m w = loadUseHazard h e := by
  simp [hazard, hiloHazard, storeHazard, hstore, hno]

end hazard

/-- Where such a count is 0, neither Execute nor Memory matches. -/
theorem misses_of_zero {e m w : Bool} (hzero : (if e then 4 else if m then 3 else if w then 2 else 0) = 0) :
    e = false ∧ m = false := by
  cases e <;> cases m <;> simp_all

/-- A store reads no Hi/Lo. -/
theorem not_hilo_move_of_stores {i : Instr} (hi : i.stores = true) (rd : RegIx) : i ≠ .mfhi rd ∧ i ≠ .mflo rd := by
  constructor <;> rintro rfl <;> cases hi

/-- An instruction that reads a general register is no `mfhi` or `mflo`. -/
theorem not_hilo_move_of_source {p : Params} {i : Instr} {j : RegIx} (hsrc : Src.g j ∈ (handlerOf p i).sources)
    (rd : RegIx) : i ≠ .mfhi rd ∧ i ≠ .mflo rd := by
  rw [← not_or]
  intro hi
  rw [sources_mfhi_mflo hi] at hsrc
  simp at hsrc

/-! ### What an issued instruction has read (R430, R432) -/

@[simp] theorem issueRecord_vhl (op : Op) (h : Handler) (d : FetchLatch) (e m : Record) (s : State) :
    (issueRecord op h d e m s).vhl = readHiLo h.readsHiLo s := by
  rcases issueRecord_cases op h d e m s with ⟨hr, -⟩ | hr <;> rw [hr] <;> rfl

@[simp] theorem issueRecord_vf (op : Op) (h : Handler) (d : FetchLatch) (e m : Record) (s : State) :
    (issueRecord op h d e m s).vf = readFprOperand h e m s := by
  rcases issueRecord_cases op h d e m s with ⟨hr, -⟩ | hr <;> rw [hr] <;> rfl

@[simp] theorem issueRecord_bd (op : Op) (h : Handler) (d : FetchLatch) (e m : Record) (s : State) :
    (issueRecord op h d e m s).bd = s.bdPending := by
  rcases issueRecord_cases op h d e m s with ⟨hr, -⟩ | hr <;> rw [hr] <;> rfl

/-- An instruction found in IDEX after a cycle was issued in it, with its own handler (R412). -/
theorem cycle_issued {s : State} {i : Instr} (hrun : (cycle s).status = .running)
    (hop : (cycle s).idex.op = .instr i) :
    s.Issues ∧ (cycle s).idex = s.issued ∧ s.entryHandler = handlerOf s.params i := by
  rw [goesOn_idex (goesOn_of_running hrun)] at hop ⊢
  have issues := issues_of_instr hop
  rw [issues.record] at hop ⊢
  exact ⟨issues, rfl, entryHandler_of_issued hop⟩

theorem readFprOperand_stale {h : Handler} {e m : Record} {s : State} {j : RegIx} (hj : h.readsFpr = some j)
    (hdraw : s.params.fprHazard = .stale ∨ (e.dst ≠ .fpr j ∧ m.dst ≠ .fpr j)) :
    readFprOperand h e m s = s.fpr.readF j := by
  have noDraw : drawsFpr h e m s = false := by
    rw [drawsFpr, hj]
    rcases hdraw with hmode | ⟨he, hm⟩
    · simp [hmode]
    · simp [fprWindow, Record.isMtc1To, he, hm]
  rw [readFprOperand, hj, noDraw]
  rfl

/-! ### A cycle with nothing in flight (R403, R480) -/

/-- Before Decode, such a cycle only clears the write flags. -/
theorem afterMemory_quiescent {s : State} (hq : s.quiescent) : afterMemory s = s.clearWflag := by
  obtain ⟨-, hidex, hexmem, hmemwb, -⟩ := hq
  rw [afterMemory, hexmem, hmemwb, hidex]
  rfl

theorem quiescent_goesOn {s : State} (hq : s.quiescent) : (wbState s.memwb s).status.isRunning = true := by
  obtain ⟨hs, -, -, hmemwb, -⟩ := hq
  exact goesOn_of_bubble hs hmemwb

theorem issues_of_waiting {s : State} {i : Instr} (hq : s.quiescent) (hw : s.waiting i) : s.Issues := by
  obtain ⟨hvalid, hfault, -⟩ := hw
  exact quiescent_issues hq hvalid hfault

/-- A cycle that issues sets the gates by the record it issues, and leaves no stall (R428, R429). -/
theorem issues_gates {s : State} (hr : (wbState s.memwb s).status.isRunning = true) (issues : s.Issues) :
    (cycle s).syscallStall = (cycle s).idex.isSyscall ∧ (cycle s).branchStall = (cycle s).idex.isCT ∧
      (cycle s).bdPending = (cycle s).idex.isCT ∧ (cycle s).decoderStall = 0 := by
  rw [goesOn_syscallStall hr, goesOn_branchStall hr, goesOn_bdPending hr, goesOn_decoderStall hr, goesOn_idex hr,
    issues.syscallStall, issues.gate, issues.newCT, issues.bdPending, issues.record, issues.decoderStall]
  exact ⟨rfl, rfl, rfl, rfl⟩

/-- With no word waiting and no stall, Decode idles (R410). -/
theorem idOut_idle {s : State} (hgate : (afterMemory s).syscallStall = false) (hstall : s.decoderStall = 0)
    (hvalid : s.ifid.valid = false) : idOut s = ⟨.bubble, true, false, afterMemory s⟩ := by
  rw [idOut, idStep, hgate, afterMemory_decoderStall, hstall, hvalid]
  rfl

/-- Where Decode takes the waiting word, or there is none, and nothing gates it, fetch goes on (R480). -/
theorem fetch_open {s : State} (hr : (wbState s.memwb s).status.isRunning = true)
    (hc : (idOut s).consumed = true) (hgate : (afterMemory s).syscallStall = false) (hbs : s.branchStall = false)
    (hbud : (afterMemory s).budgetSpent = false) :
    (cycle s).ifid = (afterMemory s).fetchEntry ∧ (cycle s).pc = (afterMemory s).pc + 4#32 ∧
      (cycle s).nfetched = (afterMemory s).nfetched + 1 := by
  cases fetch_cases hr with
  | held h => rw [hc] at h; cases h
  | gated _ hg => rw [hgate, hbs, hbud] at hg; simp at hg
  | fetched _ _ _ _ h1 h2 h3 => exact ⟨h1, h2, h3⟩

theorem budgetSpent_of_none {s : State} (h : s.params.fetchBudget = none) : s.budgetSpent = false := by
  rw [State.budgetSpent, h]

theorem budgetSpent_iff (s : State) :
    s.budgetSpent = true ↔ ∃ n, s.params.fetchBudget = some n ∧ n ≤ s.nfetched := by
  unfold State.budgetSpent
  cases s.params.fetchBudget <;> simp

/-- The entry for IFID, with the alignment check in numbers (R481, R482). -/
theorem fetchEntry_eq (s : State) : s.fetchEntry =
    if s.pc.toNat % 4 ≠ 0 then
      { valid := true, ins := 0#32, insPC := s.pc, ffault := some (.misaligned s.pc) }
    else if mapped s.params s.pc = false then
      { valid := true, ins := 0#32, insPC := s.pc, ffault := some (.memUnmapped s.pc) }
    else { valid := true, ins := s.mem.read32 s.pc, insPC := s.pc, ffault := none } := by
  have aligned : s.pc.extractLsb' 0 2 ≠ 0#2 ↔ s.pc.toNat % 4 ≠ 0 := by
    simpa only [MemKind.misalignedAt, MemKind.alignment, decide_eq_true_eq] using misalignedAt_iff .lw s.pc
  unfold State.fetchEntry
  simp only [aligned]

theorem ifState_open {s : State} (hbud : s.budgetSpent = false) : ifState true false false s =
    { s with ifid := s.fetchEntry, pc := s.pc + 4#32, nfetched := s.nfetched + 1 } := by
  simp [ifState, hbud]

/-- With nothing waiting or in flight a cycle is a fetch (R405, R480). -/
theorem cycle_fetches {s : State} (hq : s.quiescent) (hvalid : s.ifid.valid = false) (hbud : s.budgetSpent = false) :
    cycle s = { s with
      ifid := s.fetchEntry, pc := s.pc + 4#32, nfetched := s.nfetched + 1, wflag := clearFlags } := by
  have hmem := afterMemory_quiescent hq
  have hr := quiescent_goesOn hq
  obtain ⟨-, hidex, hexmem, hmemwb, hstall, hbs, hgate⟩ := hq
  have hid := idOut_idle (by rw [hmem]; exact hgate) hstall hvalid
  -- the latches stay bubbles, the gates stay open
  have hrecord : (idOut s).record = s.idex := by rw [hid, hidex]
  have hexecuted : exStepRecord s.params s.idex = s.exmem := by rw [hidex, hexmem]; rfl
  have haccessed : memOut s = s.memwb := by rw [memOut, hexmem, hmemwb, memRecord_bubble]
  have hopen : { s.clearWflag with branchStall := false } = s.clearWflag := by rw [← hbs]; rfl
  have hfetch : afterFetch s = ifState true false false s.clearWflag := by
    rw [afterFetch, hid, hmem, hopen, clearWflag_syscallStall, hgate, hbs]
  have hclear : s.clearWflag.budgetSpent = false := hbud
  rw [cycle_goes_on hr, hrecord, hexecuted, haccessed, hfetch, ifState_open hclear, State.budgetCheck,
    if_neg (by simp)]
  rfl

/-! ### A control transfer in Execute (R443, R444, R480) -/

section branch
variable {s : State} (hr : (wbState s.memwb s).status.isRunning = true)
include hr

theorem goesOn_lastBtaken : (cycle s).lastBtaken = (afterMemory s).lastBtaken := by
  rw [cycle_goes_on hr]; simp [afterFetch, idOut]

theorem goesOn_lastBd : (cycle s).lastBd = (afterMemory s).lastBd := by
  rw [cycle_goes_on hr]; simp [afterFetch, idOut]

theorem goesOn_lastBtgt : (cycle s).lastBtgt = (afterMemory s).lastBtgt := by
  rw [cycle_goes_on hr]; simp [afterFetch, idOut]

/-- Behind the closed branch gate nothing is fetched (R429, R480). -/
theorem fetch_behind_branch (hbs : s.branchStall = true) :
    (cycle s).pc = (afterMemory s).pc ∧ (cycle s).nfetched = (afterMemory s).nfetched ∧
      (cycle s).ifid = if (idOut s).consumed then .empty else s.ifid := by
  cases fetch_cases hr with
  | held hc h1 h2 h3 => exact ⟨h2, h3, by rw [h1, hc]; rfl⟩
  | gated hc _ h1 h2 h3 => exact ⟨h2, h3, by rw [h1, hc]; rfl⟩
  | fetched _ _ h => rw [hbs] at h; cases h

end branch

/-- The outcome of a control transfer in Execute is in the state that Decode sees (R443, R444). -/
theorem afterMemory_branches {s : State} (hct : s.idex.isCT = true) (hskip : s.idex.skipsExecute = false)
    (hexc : (exStepRecord s.params s.idex).exc = none) :
    (afterMemory s).lastBtaken = (exStepRecord s.params s.idex).btaken ∧ (afterMemory s).lastBd = s.idex.bd ∧
      (afterMemory s).lastBtgt = (exStepRecord s.params s.idex).btgt ∧
      (afterMemory s).pc =
        if (exStepRecord s.params s.idex).btaken then (exStepRecord s.params s.idex).btgt
        else (wbState s.memwb s).pc := by
  have hE : exStepRecord s.params s.idex = (opHandler s.params s.idex.op).operate s.idex := by
    rw [exStepRecord, exRecord, hskip]
    rfl
  have hex : exStepState s.idex (wbState s.memwb s) =
      exBranch (exStepRecord s.params s.idex)
        (exCommit (exStepRecord s.params s.idex) (wbState s.memwb s).clearWflag) := by
    rw [hE] at hexc ⊢
    rw [exStepState, wbState_params, exState_ok _ hskip hexc]
  simp [afterMemory, hex, exBranch, hct]

/-! ### The delay slot (R428, R601) -/

/-- What is issued in a delay slot is no control transfer and no trap: those are refused (R428). -/
theorem issueRecord_slot {op : Op} {h : Handler} {d : FetchLatch} {e m : Record} {s : State}
    (hbd : s.bdPending = true) :
    (issueRecord op h d e m s).isCT = false ∧ (issueRecord op h d e m s).isSyscall = false := by
  rcases issueRecord_cases op h d e m s with ⟨hr, hslot⟩ | hr <;> rw [hr]
  · exact hslot hbd
  · exact ⟨rfl, rfl⟩

/-- Decode of what waits in a delay slot holds it behind a bubble, or sends it on with its flag, as no control
transfer and no trap (R410, R411, R428). -/
theorem idOut_slot {s : State} (hgate : (afterMemory s).syscallStall = false) (hstall : s.decoderStall = 0)
    (hvalid : s.ifid.valid = true) (hbd : s.bdPending = true) :
    (idOut s).consumed = false ∧ (idOut s).record = .bubble ∨
      (idOut s).consumed = true ∧ (idOut s).record.insPC = s.ifid.insPC ∧ (idOut s).record.bd = true ∧
        (idOut s).record.isCT = false ∧ (idOut s).record.isSyscall = false ∧
        (idOut s).state.decoderStall = 0 := by
  cases idOut_cases s with
  | idle h _ => simp_all
  | stalled _ h => rw [afterMemory_decoderStall] at h; omega
  | fault f _ _ _ _ hr =>
    rw [hr, afterMemory_bdPending, hbd]
    exact .inr ⟨rfl, rfl, rfl, rfl, rfl, by simpa using hstall⟩
  | waits _ _ _ _ _ hr =>
    rw [hr]
    exact .inl ⟨rfl, rfl⟩
  | issue _ _ _ _ _ hr =>
    rw [hr]
    have slot : (afterMemory s).bdPending = true := by rw [afterMemory_bdPending, hbd]
    exact .inr ⟨rfl, issueRecord_insPC .., by rw [issueRecord_bd, slot], (issueRecord_slot slot).1,
      (issueRecord_slot slot).2, by simpa using hstall⟩

/-- A control transfer never raises in Execute. -/
theorem operate_exc_of_isCT {p : Params} {i : Instr} (hct : i.isControlTransfer = true) (r : Record) :
    ((handlerOf p i).operate r).exc = r.exc := by
  cases i
  case div | divu | brk => cases hct
  all_goals rfl

theorem noTrap_of_isCT {i : Instr} (hct : i.isControlTransfer = true) (mode : BreakMode) :
    i.isTrap mode = false := by
  cases i
  case syscall | brk => cases hct
  all_goals rfl

/-- The record of a control transfer outside a delay slot: Execute runs it, and it does not raise (R428, R440). -/
theorem flowIssued_branch {i : Instr} {s : State} (hct : i.isControlTransfer = true) (hbd : s.bdPending = false) :
    (flowIssued i (handlerOf s.params i) s).isCT = true ∧
      (flowIssued i (handlerOf s.params i) s).isSyscall = false ∧
      (flowIssued i (handlerOf s.params i) s).skipsExecute = false ∧
      (exStepRecord s.params (flowIssued i (handlerOf s.params i) s)).exc = none := by
  have hrec : flowIssued i (handlerOf s.params i) s =
      makeRecord (.instr i) (handlerOf s.params i) s.ifid .bubble .bubble s := flowIssued_ok (.inl hbd)
  have hbrk : i ≠ .brk := by rintro rfl; cases hct
  have isSyscall : (flowIssued i (handlerOf s.params i) s).isSyscall = false := by
    rw [hrec]; exact (handlerOf_isSyscall _ _).trans (noTrap_of_isCT hct _)
  have isIllegal : (flowIssued i (handlerOf s.params i) s).isIllegal = false := by
    rw [hrec]; exact handlerOf_legal _ hbrk
  have unmarked : (flowIssued i (handlerOf s.params i) s).exc = none := by rw [hrec]; rfl
  have skips : (flowIssued i (handlerOf s.params i) s).skipsExecute = false := by
    simp [Record.skipsExecute, flowIssued_isBubble, isSyscall, isIllegal, unmarked]
  refine ⟨by rw [hrec]; exact (handlerOf_isCT _ _).trans hct, isSyscall, skips, ?_⟩
  rw [exStepRecord_flowIssued, flowExecuted, exRecord, skips]
  exact (operate_exc_of_isCT hct _).trans unmarked

/-- A control transfer has been issued from a quiescent state, and the word behind it has been fetched: what the
next cycle finds (R429, R480, R601). -/
structure State.BehindBranch (s t : State) : Prop where
  status : t.status = .running
  params : t.params = s.params
  isCT : t.idex.isCT = true
  isBubble : t.idex.isBubble = false
  skipsExecute : t.idex.skipsExecute = false
  exc : (exStepRecord t.params t.idex).exc = none
  exmem : t.exmem = .bubble
  memwb : t.memwb = .bubble
  valid : t.ifid.valid = true
  insPC : t.ifid.insPC = s.pc
  pc : t.pc = s.pc + 4#32
  nfetched : t.nfetched = s.nfetched + 1
  syscallStall : t.syscallStall = false
  branchStall : t.branchStall = true
  bdPending : t.bdPending = true
  decoderStall : t.decoderStall = 0

/-- Cycle 1 of a control transfer. -/
theorem cycle_issues_branch {s : State} {i : Instr} (hq : s.quiescent) (hw : s.waiting i)
    (hct : i.isControlTransfer = true) (hbd : s.bdPending = false) (hbud : s.params.fetchBudget = none) :
    s.BehindBranch (cycle s) := by
  obtain ⟨hidex, hexmem, hmemwb, arch⟩ := cycle_issues hq hw
  have hmem := afterMemory_quiescent hq
  have hr := quiescent_goesOn hq
  have issues := issues_of_waiting hq hw
  obtain ⟨hsys, hbs, hslot, hstall⟩ := issues_gates hr issues
  obtain ⟨isCT, isSyscall, skips, unmarked⟩ := flowIssued_branch hct hbd
  obtain ⟨hs, -, -, -, -, hopen, -⟩ := hq
  obtain ⟨hifid, hpc, hcount⟩ := fetch_open hr issues.consumed issues.gate hopen
    (budgetSpent_of_none (by rw [afterMemory_params, hbud]))
  rw [hmem] at hifid hpc hcount
  rw [hidex] at hsys hbs hslot
  exact {
    status := arch.status.trans hs
    params := arch.params
    isCT := by rw [hidex, isCT]
    isBubble := by rw [hidex, flowIssued_isBubble]
    skipsExecute := by rw [hidex, skips]
    exc := by rw [hidex, arch.params, unmarked]
    exmem := hexmem
    memwb := hmemwb
    valid := by rw [hifid, fetchEntry_valid]
    insPC := by rw [hifid, fetchEntry_insPC, clearWflag_pc]
    pc := hpc
    nfetched := hcount
    syscallStall := hsys.trans isSyscall
    branchStall := hbs.trans isCT
    bdPending := hslot.trans isCT
    decoderStall := hstall }

/-- Cycle 2: the control transfer is in Execute, its delay slot in Decode; nothing is fetched. -/
theorem cycle_executes_branch {s t : State} (h : s.BehindBranch t) :
    (cycle t).status = .running ∧ (cycle t).memwb = .bubble ∧ (cycle t).nfetched = s.nfetched + 1 ∧
      (cycle t).pc = if (cycle t).exmem.btaken then (cycle t).exmem.btgt else s.pc + 4#32 := by
  have hr := goesOn_of_bubble h.status h.memwb
  have hwb : wbState t.memwb t = t := by rw [h.memwb, wbState_bubble]
  obtain ⟨hpc, hcount, -⟩ := fetch_behind_branch hr h.branchStall
  obtain ⟨-, -, -, htarget⟩ := afterMemory_branches h.isCT h.skipsExecute h.exc
  refine ⟨goesOn_running hr ?_, ?_, ?_, ?_⟩
  · have hbubble : (exStepRecord t.params t.idex).isBubble = false := by
      simpa [Record.isBubble] using h.isBubble
    exact pipelineEmpty_of_record hbubble (.inr (.inl (goesOn_exmem hr)))
  · rw [goesOn_memwb hr, memOut, h.exmem, memRecord_bubble]
  · rw [hcount, afterMemory_nfetched, hwb, h.nfetched]
  · rw [hpc, htarget, goesOn_exmem hr, hwb, h.pc]

/-- With Decode idle and the gates open, the next word is fetched behind a bubble. -/
theorem cycle_idles {u : State} (hu : u.status = .running) (hmemwb : u.memwb = .bubble)
    (hvalid : u.ifid.valid = false) (hct : u.idex.isCT = false) (hstall : u.decoderStall = 0)
    (hss : u.syscallStall = false) (hbs : u.branchStall = false) (hbud : u.params.fetchBudget = none) :
    (cycle u).idex = .bubble ∧ (cycle u).ifid.valid = true ∧ (cycle u).ifid.insPC = u.pc := by
  have hr := goesOn_of_bubble hu hmemwb
  have hwb : wbState u.memwb u = u := by rw [hmemwb, wbState_bubble]
  have hgate : (afterMemory u).syscallStall = false := by rw [afterMemory_syscallStall, hwb, hss]
  have hid := idOut_idle hgate hstall hvalid
  obtain ⟨hifid, -⟩ := fetch_open hr (by rw [hid]) hgate hbs
    (budgetSpent_of_none (by rw [afterMemory_params, hbud]))
  refine ⟨by rw [goesOn_idex hr, hid], by rw [hifid, fetchEntry_valid], ?_⟩
  rw [hifid, fetchEntry_insPC, afterMemory_pc u (by rw [hwb]) (.inl hct)]

/-- What the delay slot does in cycle 2, and then cycle 3 (R601, R605). -/
theorem cycle_decodes_slot {s t : State} (h : s.BehindBranch t) (hbud : s.params.fetchBudget = none) :
    (cycle t).idex.isBubble = true ∧ (cycle t).ifid = t.ifid ∨
      (cycle t).idex.insPC = s.pc ∧ (cycle t).idex.bd = true ∧ (cycle t).ifid.valid = false ∧
        (cycle (cycle t)).idex.isBubble = true ∧ (cycle (cycle t)).ifid.valid = true ∧
        (cycle (cycle t)).ifid.insPC = (cycle t).pc := by
  have hr := goesOn_of_bubble h.status h.memwb
  have hgate : (afterMemory t).syscallStall = false := by
    rw [afterMemory_syscallStall, h.memwb, wbState_bubble, h.syscallStall]
  obtain ⟨-, -, hifid⟩ := fetch_behind_branch hr h.branchStall
  rcases idOut_slot hgate h.decoderStall h.valid h.bdPending with
    ⟨hc, hrec⟩ | ⟨hc, hinsPC, hbd, hct, hsys, hstall⟩
  · left
    rw [goesOn_idex hr, hrec, hifid, hc]
    exact ⟨rfl, rfl⟩
  · right
    have empty : (cycle t).ifid.valid = false := by rw [hifid, hc]; rfl
    obtain ⟨hu, hmemwb, -, -⟩ := cycle_executes_branch h
    obtain ⟨hidex, hvalid, hpc⟩ := cycle_idles hu hmemwb empty
      (by rw [goesOn_idex hr, hct])
      (by rw [goesOn_decoderStall hr, hstall])
      (by rw [goesOn_syscallStall hr, idOut_syscallStall, hgate, hsys]; rfl)
      (by rw [goesOn_branchStall hr, idOut_newCT, hct])
      (by rw [cycle_params, h.params, hbud])
    rw [goesOn_idex hr]
    exact ⟨hinsPC.trans h.insPC, hbd, empty, by rw [hidex]; rfl, hvalid, hpc⟩

/-- An instruction that may stand in a delay slot is not refused there: it halts, faults or commits (R602). -/
theorem exec_allowed {i : Instr} {s : State} (hs : s.status = .running)
    (hok : i.delaySlotOk s.params.breakMode = true) :
    ∃ t, exec i s = .next t ∧ t.status ≠ .refused .delaySlotControl := by
  simp only [Instr.delaySlotOk, Bool.not_eq_true', Bool.or_eq_false_iff] at hok
  obtain ⟨hct, htrap⟩ := hok
  cases hill : (handlerOf s.params i).isIllegal with
  | true =>
    obtain ⟨rfl, hmode⟩ := (handlerOf_isIllegal _ _).1 hill
    exact ⟨_, exec_halts hs hmode, nofun⟩
  | false =>
    have decoded : (afterDecode i s).status = .running := hs
    refine ⟨_, exec_plain hs (.inr hct) htrap hill, ?_⟩
    split
    · nofun
    · split
      · simp [decoded]
      · split
        · nofun
        · simp [decoded]

/-! ### The ends of a run -/

/-- The driver stops the run only at the end of a cycle, when all that was fetched has retired (R485). -/
theorem budgetCheck_stopped_iff {s : State} (hs : s.status = .running) :
    s.budgetCheck.status = .stopped ↔
      s.budgetSpent = true ∧ s.ifid.valid = false ∧ s.idex.isBubble = true ∧ s.exmem.isBubble = true ∧
        s.memwb.isBubble = true := by
  unfold State.budgetCheck
  split
  · next h => simp_all
  · next h => simp_all

theorem wbState_ends_cycle {s : State} {st : Status} (hs : s.status = .running)
    (hwb : wbState s.memwb s = s.setStatus st) (hend : st.isRunning = false) :
    step s = .next { s with status := st } := by
  rw [step_running ((isRunning_iff _).2 hs), cycle_ends (by rw [hwb]; exact hend), hwb]
  rfl

/-- With nothing in flight, a fetch fault that waits becomes a record of its own (R410, R411). -/
theorem idOut_fetchFault {s : State} {f : ModelFault} (hq : s.quiescent) (hvalid : s.ifid.valid = true)
    (hfault : s.ifid.ffault = some f) : (idOut s).record = faultRecord s.ifid f s.bdPending := by
  have hmem := afterMemory_quiescent hq
  obtain ⟨-, -, -, -, hstall, -, hgate⟩ := hq
  simp [idOut, idStep, hmem, hgate, hstall, hvalid, hfault]

/-! ### Launch -/

theorem launch_quiescent (l : Launch) : (State.launch l).quiescent := ⟨rfl, rfl, rfl, rfl, rfl, rfl, rfl⟩

theorem fetchEntry_ok {s : State} (haligned : s.pc.toNat % 4 = 0) (hmapped : mapped s.params s.pc = true) :
    s.fetchEntry = { valid := true, ins := s.mem.read32 s.pc, insPC := s.pc, ffault := none } := by
  rw [fetchEntry_eq, if_neg (by simp [haligned]), if_neg (by simp [hmapped])]

end Sys2Proof.Machine

namespace Sys2Proof.Proofs

open Sys2Proof.Machine

/-- Settles O23: Decode refuses what may not stand there; the other instructions halt, fault or commit. -/
theorem delaySlotRefusals : Obligations.DelaySlotRefusals := by
  unfold Obligations.DelaySlotRefusals
  intro i s hs hbd
  refine ⟨fun hno => exec_refuses hs hbd ?_, exec_allowed hs⟩
  rwa [Instr.delaySlotOk, Bool.not_eq_false'] at hno

/-- Settles O32, by the rule that applies to each of the three classes of instructions. -/
theorem hazardCounts : Obligations.HazardCounts := by
  unfold Obligations.HazardCounts
  intro p i e m w h hilo reads
  have store : h.isStore = i.stores := handlerOf_isStore p i
  refine ⟨fun rd hi => ?_, fun hstores => ?_, fun hstores hi => ?_⟩
  · have hno : i.stores = false := by rcases hi with rfl | rfl <;> rfl
    have hits (r : Record) : hilo r ↔ r.dst.hits .hilo = true := (hits_hilo_iff _).symm
    rw [hazard_hilo e m w (store.trans hno) (sources_mfhi_mflo hi)]
    simp +contextual [hits]
  · have hno : Src.hilo ∉ h.sources := hilo_not_source (not_hilo_move_of_stores hstores)
    have hits (r : Record) : reads r ↔ r.dst.hitsAny h.sources = true := (hitsAny_iff hno).symm
    rw [hazard_store e m w hno (store.trans hstores)]
    simp +contextual [hits]
  · have hno : Src.hilo ∉ h.sources := hilo_not_source hi
    have hits (r : Record) : reads r ↔ r.dst.hitsAny h.sources = true := (hitsAny_iff hno).symm
    rw [hazard_plain e m w hno (store.trans hstores)]
    simp +contextual [loadUseHazard, hits, Config.loadUseStall]

/-- Settles O35: the hazard is 2 (O32), and a stall of 2 is exactly two bubbles (O34). -/
theorem loadUseStallsTwo : Obligations.LoadUseStallsTwo := by
  unfold Obligations.LoadUseStallsTwo
  intro s i j hI hw hstall hss hload hdst hj hsrc hstores hrun hs
  have two : hazard (handlerOf s.params i) (exStepRecord s.params s.idex) (memOut s) s.memwb = 2 := by
    obtain ⟨-, -, plain⟩ := hazardCounts s.params i (exStepRecord s.params s.idex) (memOut s) s.memwb
    refine (plain hstores (not_hilo_move_of_source hsrc)).1 ⟨?_, .inl ⟨j, hj, ?_, hsrc⟩⟩
    · simpa [Record.isLoad] using hload
    · simpa using hdst
  have stall (k : Nat) := stallsAreExact s i 2 k hI hw hstall hss two.symm (by decide) (fun m t => hrun m t) hs
  obtain ⟨t, ht, htidex, -⟩ := (stall 1).1 (by decide) (by decide)
  obtain ⟨u, hu, huidex, -⟩ := (stall 2).1 (by decide) (by decide)
  obtain ⟨v, hv, hissued, hinsPC⟩ := (stall 2).2
  exact ⟨t, u, v, ht, hu, hv, htidex, huidex, hissued, hinsPC⟩

/-- Settles O36: the count of a word that was issued is 0, so by O32 neither Execute nor Memory held a producer. -/
theorem interlocksCoverHiLoAndStores : Obligations.InterlocksCoverHiLoAndStores := by
  unfold Obligations.InterlocksCoverHiLoAndStores
  intro s t i hst hrun hop
  obtain ⟨-, rfl⟩ := step_next hst
  have hr := goesOn_of_running hrun
  obtain ⟨issues, hidex, hh⟩ := cycle_issued hrun hop
  have hzero := issues.noHazard
  rw [hh] at hzero
  rw [goesOn_exmem hr, goesOn_memwb hr]
  refine ⟨fun rd hi => ⟨?_, ?_⟩, fun hstores x hx => ?_⟩
  · have hstore : (handlerOf s.params i).isStore = false := by rcases hi with rfl | rfl <;> rfl
    rw [hazard_hilo _ _ _ hstore (sources_mfhi_mflo hi)] at hzero
    have noProducer (d : Dst) (hd : d.hits .hilo = false) (a b : Bool) : d ≠ .hilo a b := by
      rintro rfl
      cases hd
    exact fun a b => ⟨noProducer _ (misses_of_zero hzero).1 a b, noProducer _ (misses_of_zero hzero).2 a b⟩
  · rw [hidex, State.issued, issueRecord_vhl, hh, cycle_hi, cycle_lo, ← afterMemory_hi, ← afterMemory_lo]
    rcases hi with rfl | rfl
    · rw [if_pos rfl]; rfl
    · rw [if_neg nofun]; rfl
  · have hstore : (handlerOf s.params i).isStore = true := (handlerOf_isStore _ _).trans hstores
    rw [hazard_store _ _ _ (hilo_not_source (not_hilo_move_of_stores hstores)) hstore] at hzero
    have misses (d : Dst) (hd : d.hitsAny (handlerOf s.params i).sources = false) : d.hits x = false :=
      Bool.eq_false_iff.2 fun hit => by rw [hitsAny_of_mem hx hit] at hd; cases hd
    exact ⟨misses _ (misses_of_zero hzero).1, misses _ (misses_of_zero hzero).2⟩

/-- Settles O38: Decode reads the committed file behind Writeback, and draws only in the window under draw. -/
theorem fprReadsAreStale : Obligations.FprReadsAreStale := by
  unfold Obligations.FprReadsAreStale
  intro s t rt fs hst hrun hop hdraw
  obtain ⟨-, rfl⟩ := step_next hst
  have hr := goesOn_of_running hrun
  obtain ⟨-, hidex, hh⟩ := cycle_issued hrun hop
  rw [goesOn_exmem hr, goesOn_memwb hr] at hdraw
  rw [hidex, State.issued, issueRecord_vf, hh, cycle_fpr, ← afterMemory_fpr]
  exact readFprOperand_stale rfl (by rwa [afterMemory_params])

/-- Settles O42: three cycles bring the record of the fault to Writeback without effect; there it ends the run. -/
theorem fetchFaultsAreTaken : Obligations.FetchFaultsAreTaken := by
  unfold Obligations.FetchFaultsAreTaken
  intro s f hq hvalid hfault
  obtain ⟨u, hu, hmemwb, arch⟩ :=
    stepN_three_no_effect hq (idOut_fetchFault hq hvalid hfault) rfl rfl rfl
  obtain ⟨hs, -⟩ := hq
  have ends := wbState_ends_cycle (arch.status.trans hs) (wbState_faulted _ u (by rw [hmemwb]; rfl)) rfl
  exact ⟨_, (stepN_succ_right hu).trans ends, rfl, arch.gpr, arch.fpr, arch.hi, arch.lo, arch.mem, arch.os⟩

/-- Settles O49: the invariant has the branch gate closed behind the control transfer, and Execute records and
redirects by the record it hands on. -/
theorem branchesRedirectBehindTheGate : Obligations.BranchesRedirectBehindTheGate := by
  unfold Obligations.BranchesRedirectBehindTheGate
  intro s t hI hst hrun hct hexc hsys hill hexc' hw
  obtain ⟨hs, rfl⟩ := step_next hst
  have hr := goesOn_of_running hrun
  have hbubble : s.idex.isBubble = false := by
    refine Bool.eq_false_iff.2 fun hb => ?_
    rw [hI.idexTags.1 hb] at hct
    cases hct
  have hskip : s.idex.skipsExecute = false := by simp [Record.skipsExecute, hbubble, hsys, hill, hexc]
  obtain ⟨hwpc, -, hwcount⟩ := wbState_no_trap hw hr
  obtain ⟨htaken, hbd, htgt, hpc⟩ := afterMemory_branches hct hskip hexc'
  obtain ⟨hpc', hcount, hifid⟩ :=
    fetch_behind_branch hr ((hI.branchGate ((isRunning_iff _).1 hs)).trans hct)
  rw [goesOn_lastBtaken hr, goesOn_lastBd hr, goesOn_lastBtgt hr, goesOn_exmem hr, hpc', hcount, hifid, hpc, hwpc,
    afterMemory_nfetched]
  refine ⟨htaken, hbd, htgt, rfl, hwcount, fun hvalid => ?_⟩
  split at hvalid
  · cases hvalid
  · next hc => rw [if_neg hc]

/-- Settles O50: cycle 1 issues the control transfer and fetches its slot, cycle 2 redirects and decodes the slot,
cycle 3 fetches from where `pc` then is. -/
theorem delaySlotBeforeTheTarget : Obligations.DelaySlotBeforeTheTarget := by
  unfold Obligations.DelaySlotBeforeTheTarget
  intro s i hq hw hct hbd hbud hpc
  have behind := cycle_issues_branch hq hw hct hbd hbud
  obtain ⟨hs, -⟩ := hq
  obtain ⟨hu, -, hcount, htarget⟩ := cycle_executes_branch behind
  have h2 : stepN 2 s = .next (cycle (cycle s)) := by
    rw [stepN_succ hs, stepN_succ behind.status, stepN]
  have h3 : stepN 3 s = .next (cycle (cycle (cycle s))) := by
    rw [stepN_succ_right h2, step_running ((isRunning_iff _).2 hu)]
  have slot := cycle_decodes_slot behind hbud
  rw [hpc] at slot htarget
  rw [BitVec.add_assoc] at htarget
  refine ⟨cycle s, cycle (cycle s), stepN_succ hs 0, h2, behind.valid, behind.insPC.trans hpc, hcount, htarget, ?_⟩
  refine slot.imp_right fun ⟨hinsPC, hflag, hempty, hidex, hvalid, hnext⟩ => ?_
  exact ⟨hinsPC, hflag, hempty, _, h3, hidex, hvalid, hnext⟩

/-- Settles O53: the budget check is the last step of the cycle and changes the status only. -/
theorem budgetStopsTheRun : Obligations.BudgetStopsTheRun := by
  unfold Obligations.BudgetStopsTheRun
  intro s t hst hwb
  obtain ⟨-, rfl⟩ := step_next hst
  rw [cycle_goes_on ((isRunning_iff _).2 hwb), budgetCheck_stopped_iff (by simpa [afterFetch, idOut] using hwb),
    budgetSpent_iff]
  simp

/-- Settles O18: the access passes its checks, and Writeback commits the loaded word. -/
theorem floatLoadResult : Obligations.FloatLoadResult := by
  unfold Obligations.FloatLoadResult
  intro rs ft offset
  refine ⟨by simp [decode], fun s hs => ?_⟩
  intro a v halign hmapped
  have hfault : accessFault s.params .lwc1 a = none := accessFault_none halign hmapped
  have hload : memRecord (operated (.lwc1 ft offset rs) s) s = { operated (.lwc1 ft offset rs) s with loadVal := v } :=
    memRecord_load (k := .lwc1) rfl rfl hfault rfl
  rw [exec_mem (i := .lwc1 ft offset rs) rfl hs, hload]
  exact congrArg _ (by rw [show effectiveAddress (s.byp.read rs) offset = a from rfl, hfault]; rfl)

/-- Settles O33: every row is that of the handler. -/
theorem sourcesAndDestinations : Obligations.SourcesAndDestinations := by
  unfold Obligations.SourcesAndDestinations
  intro p a b c n t sh row
  have trap (hmode : p.breakMode = .trap) : row .brk = ([], .none, none, false, true) := by
    simp [row, handlerOf, handleBrk, hmode, trapHandler]
  have illegal (hmode : p.breakMode = .illegal) : row .brk = ([], .none, none, false, false) := by
    simp [row, handlerOf, handleBrk, hmode, illegalHandler]
  simp only [List.forall_mem_cons, List.not_mem_nil, false_imp_iff, implies_true, and_true]
  and_intros
  rotate_right 2
  · exact trap
  · exact illegal
  all_goals rfl

/-- Settles O39: the issuing cycle moves the record on, sets the gates by it, and otherwise clears the flags. -/
theorem stepIssuesTheDecodedInstruction : Obligations.StepIssuesTheDecodedInstruction := by
  unfold Obligations.StepIssuesTheDecodedInstruction
  intro s i hq hw
  obtain ⟨hidex, hexmem, hmemwb, arch⟩ := cycle_issues hq hw
  have hr := quiescent_goesOn hq
  obtain ⟨hsys, hbs, hslot, -⟩ := issues_gates hr (issues_of_waiting hq hw)
  have hbyp : (cycle s).byp = s.byp := by rw [goesOn_byp hr, afterMemory_quiescent hq, clearWflag_byp]
  obtain ⟨hs, -⟩ := hq
  refine ⟨cycle s, step_running ((isRunning_iff _).2 hs), hidex, ?_, ?_, hexmem, hmemwb, arch.status.trans hs, arch.gpr,
    hbyp, arch.fpr, arch.hi, arch.lo, arch.mem, arch.os, hsys, hbs, hslot⟩
  · rw [hidex, flowIssued, issueRecord_ins]
  · rw [hidex, flowIssued, issueRecord_insPC]

/-- Settles O41: such a cycle is a fetch, and a word is its four bytes. -/
theorem fetchResults : Obligations.FetchResults := by
  unfold Obligations.FetchResults
  intro s hq hvalid hbud d
  have hd : s.fetchEntry = d := fetchEntry_eq s
  rw [← hd, ← cycle_fetches hq hvalid hbud]
  obtain ⟨hs, -⟩ := hq
  exact step_running ((isRunning_iff _).2 hs)

/-- Settles O44: the checks of Writeback come before all else in the cycle. -/
theorem writebackEndsTheRun : Obligations.WritebackEndsTheRun := by
  unfold Obligations.WritebackEndsTheRun
  intro s hs
  exact ⟨fun _ hx => wbState_ends_cycle hs (wbState_refused _ _ hx) rfl,
    fun _ hx => wbState_ends_cycle hs (wbState_faulted _ _ hx) rfl,
    fun hx hb hi => wbState_ends_cycle hs (wbState_halted _ _ hx hb hi) rfl⟩

/-- Settles O56: the launch state is quiescent, so cycle 1 fetches, which leaves it quiescent with the word
waiting, and cycle 2 issues. -/
theorem launchRunsTheEntryInstruction : Obligations.LaunchRunsTheEntryInstruction := by
  unfold Obligations.LaunchRunsTheEntryInstruction
  intro l i hbud haligned hmapped hdec
  have hfetch := cycle_fetches (launch_quiescent l) rfl (budgetSpent_of_none hbud)
  have hentry : (State.launch l).fetchEntry =
      { valid := true, ins := l.mem.read32 l.entryPC, insPC := l.entryPC, ffault := none } :=
    fetchEntry_ok haligned hmapped
  rw [hentry] at hfetch
  have hq : (cycle (State.launch l)).quiescent := by rw [hfetch]; exact launch_quiescent l
  have hw : (cycle (State.launch l)).waiting i := by rw [hfetch]; exact ⟨rfl, rfl, hdec⟩
  have hifid : (cycle (State.launch l)).ifid =
      { valid := true, ins := l.mem.read32 l.entryPC, insPC := l.entryPC, ffault := none } := by rw [hfetch]
  obtain ⟨hidex, -⟩ := cycle_issues hq hw
  obtain ⟨hs, -⟩ := hq
  refine ⟨cycle (State.launch l), cycle (cycle (State.launch l)), stepN_succ rfl 0, hw, by rw [hifid], ?_, ?_, ?_, ?_⟩
  · rw [stepN_succ rfl, stepN_succ hs, stepN]
  · rw [hidex]
    exact flowIssued_isBubble _ _ _
  · rw [hidex, flowIssued, issueRecord_insPC, hifid]
  · rw [hidex, flowIssued, issueRecord_ins, hifid]

end Sys2Proof.Proofs

/-! PROOFS, family 41_alu: words written out from the encodings (O3), and the results of the register-register
operations (O6), the shifts (O7) and the register-immediate operations (O8). -/

namespace Sys2Proof.Machine

/-! ### An instruction whose only effect is its commit (R441, R470) -/

/-- Such an instruction passes Memory and the branch unit untouched: Execute commits early, Writeback commits. -/
theorem exec_commits {i : Instr} {s : State} (hs : s.status = .running) (hct : i.isControlTransfer = false)
    (htrap : i.isTrap s.params.breakMode = false) (hbrk : i ≠ .brk) (hmem : i.memOperand = none)
    (hexc : (operated i s).exc = none) :
    exec i s = .next (commit (operated i s) (exCommit (operated i s) s.retired).clearWflag) := by
  have noBranch : (operated i s).isCT = false := by
    rw [operated, (handlerOf_tags _ _ _).isCT]
    exact (handlerOf_isCT _ _).trans hct
  have decoded : afterDecode i s = s.retired := by simp [afterDecode, hct, State.retired]
  rw [exec_plain hs (.inr hct) htrap (handlerOf_legal _ hbrk)]
  simp [hexc, hmem, exBranch, noBranch, decoded]

/-- An instruction with a general-register destination is no trap and raises nothing (R421, R562). -/
theorem gprDest_plain {i : Instr} {rd : RegIx} (h : i.gprDest = some rd) (s : State) :
    i.isTrap s.params.breakMode = false ∧ i ≠ .brk ∧ (operated i s).exc = none := by
  cases i <;> simp [Instr.gprDest] at h <;> exact ⟨rfl, nofun, rfl⟩

/-- A general-register result reaches the bypass copy in Execute and the committed one in Writeback (R13, R441,
R470). -/
theorem exec_gprResult {i : Instr} {rd : RegIx} {v : Word} {s : State} (hs : s.status = .running)
    (hct : i.isControlTransfer = false) (hmem : i.memOperand = none) (hdest : i.gprDest = some rd)
    (hv : (operated i s).resLo = v) : exec i s = .next (s.retiredGpr rd v) := by
  obtain ⟨htrap, hbrk, hexc⟩ := gprDest_plain hdest s
  have tags := handlerOf_tags s.params i (makeRecord (.instr i) (handlerOf s.params i) s.ifid .bubble .bubble s)
  have dst : (operated i s).dst = .gpr rd := by
    rw [operated, tags.dst]
    exact (handlerOf_dst s.params i).trans (by simp [instrDst, hdest])
  have noLoad : (operated i s).isLoad = false := by
    have : (operated i s).mem = none := by
      rw [operated, tags.mem]
      exact (handlerOf_mem s.params i).trans (by rw [hmem]; rfl)
    simp [Record.isLoad, this]
  rw [exec_commits hs hct htrap hbrk hmem hexc]
  simp only [commit, exCommit, dst, Record.result, noLoad, hv]
  rfl

/-! ### Comparisons and shift amounts, as the rules write them (R307, R518, R519, R532) -/

theorem ofBool_signedLess (a b : Word) : ofBool (signedLess a b) = if a.toInt < b.toInt then 1#32 else 0#32 := by
  simp [ofBool, signedLess]

theorem ofBool_unsignedLess (a b : Word) :
    ofBool (unsignedLess a b) = if a.toNat < b.toNat then 1#32 else 0#32 := by
  simp [ofBool, unsignedLess]

theorem ofBool_signedLess_simm (a : Word) (imm : Imm16) :
    ofBool (signedLess a (simm imm)) = if a.toInt < imm.toInt then 1#32 else 0#32 := by
  rw [ofBool_signedLess, simm, BitVec.toInt_signExtend_of_le (by decide)]

theorem shiftAmount_eq (v : Word) : shiftAmount v = v.toNat % 32 := toNat_extract_low v 5

end Sys2Proof.Machine

namespace Sys2Proof.Proofs

open Sys2Proof.Machine

/-- Settles O3: each word is a closed term, and the decoder evaluates on it. -/
theorem wordsOfTheSpec : Obligations.WordsOfTheSpec := by
  unfold Obligations.WordsOfTheSpec
  and_intros <;> rfl

/-- Settles O6, row by row: the fields read back, and the result is the handler's. -/
theorem registerRegisterResults : Obligations.RegisterRegisterResults := by
  unfold Obligations.RegisterRegisterResults
  simp only [List.forall_mem_cons, List.not_mem_nil, false_imp_iff, implies_true, and_true]
  and_intros
  all_goals
    intro rs rt rd shamt
    refine ⟨by simp [decodeSpecial], fun s hs => exec_gprResult hs rfl rfl rfl ?_⟩
  rotate_right 2
  · exact ofBool_signedLess _ _
  · exact ofBool_unsignedLess _ _
  all_goals rfl

/-- Settles O7: as O6; a variable shift's handler takes the low five bits of x[rs]. -/
theorem shiftResults : Obligations.ShiftResults := by
  unfold Obligations.ShiftResults
  simp only [List.forall_mem_cons, List.not_mem_nil, false_imp_iff, implies_true, and_true, ← shiftAmount_eq]
  refine ⟨?_, ?_⟩
  · and_intros
    all_goals
      intro rs rt rd shamt
      exact ⟨by simp [decodeSpecial], fun s hs n => exec_gprResult hs rfl rfl rfl rfl⟩
  · and_intros
    all_goals
      intro rs rt rd shamt
      exact ⟨by simp [decodeSpecial], fun s hs => exec_gprResult hs rfl rfl rfl rfl⟩

/-- Settles O8: as O6; a comparison with the sign-extended immediate is one with its signed value (R532). -/
theorem registerImmediateResults : Obligations.RegisterImmediateResults := by
  unfold Obligations.RegisterImmediateResults
  simp only [List.forall_mem_cons, List.not_mem_nil, false_imp_iff, implies_true, and_true]
  and_intros
  all_goals
    intro rs rt imm
    refine ⟨by simp [decode], fun s hs => exec_gprResult hs rfl rfl rfl ?_⟩
  rotate_left 3
  · exact ofBool_signedLess_simm _ _
  · exact ofBool_unsignedLess _ _
  all_goals rfl

end Sys2Proof.Proofs

/-! PROOFS, family 42_muldiv: the products (O9), the signed and the unsigned division (O10, O11), and the Hi/Lo
moves (O12). -/

namespace Sys2Proof.Machine

/-! ### The arithmetic of the operation handlers (R560 to R563) -/

/-- The product of two signed words is in [-2^62, 2^62], so 64 bits hold it. -/
theorem toInt_signedProduct (a b : Word) : (signedProduct a b).toInt = a.toInt * b.toInt :=
  BitVec.toInt_ofInt_eq_self (by decide)
    (Int.le_trans (show -2 ^ 63 ≤ -(2 ^ 62 : Int) by decide) BitVec.le_toInt_mul_toInt)
    (Int.lt_of_le_of_lt BitVec.toInt_mul_toInt_le (show (2 ^ 62 : Int) < 2 ^ 63 by decide))

theorem toNat_unsignedProduct (a b : Word) : (unsignedProduct a b).toNat = a.toNat * b.toNat :=
  Nat.mod_eq_of_lt BitVec.toNat_mul_toNat_lt

theorem signedQuotient_eq_sdiv (a b : Word) : signedQuotient a b = a.sdiv b :=
  BitVec.eq_of_toInt_eq ((BitVec.toInt_ofInt _).trans (BitVec.toInt_sdiv a b).symm)

theorem signedRemainder_eq_srem (a b : Word) : signedRemainder a b = a.srem b := by
  rw [signedRemainder, ← Int.tmod_def, ← BitVec.toInt_srem, BitVec.ofInt_toInt]

/-- Only -2^31 / -1 leaves the signed words. -/
theorem toInt_signedQuotient {a b : Word} (h : ¬(a = 0x80000000#32 ∧ b = 0xffffffff#32)) :
    (signedQuotient a b).toInt = a.toInt.tdiv b.toInt := by
  rw [signedQuotient_eq_sdiv]
  exact BitVec.toInt_sdiv_of_ne_or_ne a b (Decidable.not_and_iff_not_or_not.1 h)

theorem toInt_signedRemainder {a b : Word} (h : ¬(a = 0x80000000#32 ∧ b = 0xffffffff#32)) :
    (signedRemainder a b).toInt = a.toInt - b.toInt * (signedQuotient a b).toInt := by
  rw [signedRemainder_eq_srem, BitVec.toInt_srem, Int.tmod_def, toInt_signedQuotient h]

/-! ### The cases of the divisions (R562, R563) -/

section divide
variable {mode : DivOverflowMode} {r : Record}

theorem operateDiv_zero (h : r.vrt = 0#32) : operateDiv mode r = r.withHiLo Config.div0Hi Config.div0Lo := if_pos h

theorem operateDiv_overflow_fault (hmode : mode = .fault) (ha : r.vrs = 0x80000000#32)
    (hb : r.vrt = 0xffffffff#32) : operateDiv mode r = r.raise (.divOverflow r.insPC) := by
  simp [operateDiv, divOverflows, hmode, ha, hb]

theorem operateDiv_overflow_value {h l : Word} (hmode : mode = .value h l) (ha : r.vrs = 0x80000000#32)
    (hb : r.vrt = 0xffffffff#32) : operateDiv mode r = r.withHiLo h l := by
  simp [operateDiv, divOverflows, hmode, ha, hb]

theorem operateDiv_quotient (h0 : r.vrt ≠ 0#32) (h : ¬(r.vrs = 0x80000000#32 ∧ r.vrt = 0xffffffff#32)) :
    operateDiv mode r = r.withHiLo (signedRemainder r.vrs r.vrt) (signedQuotient r.vrs r.vrt) := by
  have fits : divOverflows r.vrs r.vrt = false := by simpa [divOverflows] using h
  simp [operateDiv, h0, fits]

theorem operateDivu_zero (h : r.vrt = 0#32) : operateDivu r = r.withHiLo Config.div0Hi Config.div0Lo := if_pos h

theorem operateDivu_quotient (h : r.vrt ≠ 0#32) : operateDivu r = r.withHiLo (r.vrs % r.vrt) (r.vrs / r.vrt) := by
  rw [BitVec.umod_def, BitVec.udiv_def]
  exact if_neg h

end divide

/-! ### An instruction whose destination is the Hi/Lo pair (R421, R470) -/

section hilo
variable {i : Instr} {s : State} {hiEn loEn : Bool}

theorem hiloDst_plain (h : instrDst i = .hilo hiEn loEn) (mode : BreakMode) :
    i.isControlTransfer = false ∧ i.isTrap mode = false ∧ i ≠ .brk ∧ i.memOperand = none := by
  cases i <;> simp [instrDst, Instr.gprDest, Instr.fprDest, Instr.hiloDest] at h <;> exact ⟨rfl, rfl, nofun, rfl⟩

/-- Execute has no early commit for the pair (R441); Writeback commits the enabled halves. -/
theorem exec_hiloResult (hs : s.status = .running) (hdst : instrDst i = .hilo hiEn loEn)
    (hexc : (operated i s).exc = none) :
    exec i s = .next (s.retired.commitHiLo hiEn loEn (operated i s).resHi (operated i s).resLo) := by
  obtain ⟨hct, htrap, hbrk, hmem⟩ := hiloDst_plain hdst s.params.breakMode
  have dst : (operated i s).dst = .hilo hiEn loEn := by
    rw [operated, (handlerOf_tags _ _ _).dst]
    exact (handlerOf_dst s.params i).trans hdst
  rw [exec_commits hs hct htrap hbrk hmem hexc]
  simp only [commit, exCommit, dst]
  rfl

/-- Both halves of the pair, from a handler that fills both result words. -/
theorem exec_hiloPair {r : Record} {h l : Word} (hs : s.status = .running) (hdst : instrDst i = .hilo true true)
    (hexc : r.exc = none) (hop : operated i s = r.withHiLo h l) :
    exec i s = .next { s.retired with hi := h, lo := l } := by
  rw [exec_hiloResult hs hdst (by rw [hop]; exact hexc), hop]
  rfl

/-- A 64-bit product: its halves, put together again, are the product (R552). -/
theorem exec_product {r : Record} {p : BitVec 64} (hs : s.status = .running) (hdst : instrDst i = .hilo true true)
    (hexc : r.exc = none) (hop : operated i s = r.withProduct p) :
    ∃ t, exec i s = .next t ∧ t = { s.retired with hi := t.hi, lo := t.lo } ∧ t.hi ++ t.lo = p :=
  ⟨_, exec_hiloPair hs hdst hexc hop, rfl, BitVec.extractLsb'_append_extractLsb' (w := 32)⟩

/-- A raised record ends the run at its own address, and commits nothing (R15, R562, R802). -/
theorem exec_hiloRaise {x : Exc} (hs : s.status = .running) (hdst : instrDst i = .hilo hiEn loEn)
    (hexc : (operated i s).exc = some x) :
    exec i s = .next { s.retired with status := .faulted (.divOverflow s.ifid.insPC) } := by
  obtain ⟨hct, htrap, hbrk, -⟩ := hiloDst_plain hdst s.params.breakMode
  rw [exec_plain hs (.inr hct) htrap (handlerOf_legal _ hbrk), hexc]
  simp [afterDecode, hct, State.setStatus, State.retired]

end hilo

end Sys2Proof.Machine

namespace Sys2Proof.Proofs

open Sys2Proof.Machine

/-- Settles O9: the pair is the 64-bit product, which is exact. -/
theorem multiplyResults : Obligations.MultiplyResults := by
  unfold Obligations.MultiplyResults
  intro rs rt rd shamt
  refine ⟨by simp [decodeSpecial], by simp [decodeSpecial], fun s hs => ⟨?_, ?_⟩⟩
  · obtain ⟨t, hexec, hframe, hproduct⟩ := exec_product (i := .mult rs rt) hs rfl rfl rfl
    exact ⟨t, hexec, hframe, hproduct ▸ toInt_signedProduct _ _⟩
  · obtain ⟨t, hexec, hframe, hproduct⟩ := exec_product (i := .multu rs rt) hs rfl rfl rfl
    exact ⟨t, hexec, hframe, hproduct ▸ toNat_unsignedProduct _ _⟩

/-- Settles O10, by the cases of the handler: a zero divisor, the overflow under both parameters, the quotient. -/
theorem signedDivideResults : Obligations.SignedDivideResults := by
  unfold Obligations.SignedDivideResults
  intro rs rt rd shamt
  refine ⟨by simp [decodeSpecial], fun s hs => ⟨fun h0 => ?zero, fun ha hb => ⟨fun hmode => ?overflowFault,
    fun h l hmode => ?overflowValue⟩, fun h0 hfits => ?quotient⟩⟩
  case zero => exact exec_hiloPair hs rfl rfl (operateDiv_zero h0)
  case overflowFault => exact exec_hiloRaise hs rfl (congrArg Record.exc (operateDiv_overflow_fault hmode ha hb))
  case overflowValue => exact exec_hiloPair hs rfl rfl (operateDiv_overflow_value hmode ha hb)
  case quotient =>
    exact ⟨_, exec_hiloPair hs rfl rfl (operateDiv_quotient h0 hfits), rfl, toInt_signedQuotient hfits,
      toInt_signedRemainder hfits⟩

/-- Settles O11: a zero divisor, or quotient and remainder. -/
theorem unsignedDivideResults : Obligations.UnsignedDivideResults := by
  unfold Obligations.UnsignedDivideResults
  intro rs rt rd shamt
  refine ⟨by simp [decodeSpecial], fun s hs => ⟨fun h0 => ?_, fun h0 => ?_⟩⟩
  · exact exec_hiloPair hs rfl rfl (operateDivu_zero h0)
  · exact ⟨_, exec_hiloPair hs rfl rfl (operateDivu_quotient h0), rfl, BitVec.toNat_udiv, BitVec.toNat_umod⟩

/-- Settles O12: a move from the pair has a general-register result, a move to it enables one half. -/
theorem hiLoMoveResults : Obligations.HiLoMoveResults := by
  unfold Obligations.HiLoMoveResults
  intro rs rt rd shamt
  refine ⟨by simp [decodeSpecial], by simp [decodeSpecial], by simp [decodeSpecial], by simp [decodeSpecial],
    fun s hs => ⟨?_, ?_, ?_, ?_⟩⟩
  · exact exec_gprResult hs rfl rfl rfl rfl
  · exact exec_gprResult hs rfl rfl rfl rfl
  · exact exec_hiloResult (i := .mthi rs) hs rfl rfl
  · exact exec_hiloResult (i := .mtlo rs) hs rfl rfl

end Sys2Proof.Proofs

/-! PROOFS, family 43_control: the conditional branches (O13), the linking branches (O14) and the jumps (O15),
outside a delay slot. -/

namespace Sys2Proof.Machine

/-! ### A control transfer that runs alone (R428, R440 to R444, R470) -/

/-- The outcome is recorded, and decides the fetch address (R443, R444). -/
theorem exBranch_of_isCT {e : Record} (hct : e.isCT = true) (s : State) :
    exBranch e s = { s with
      lastBtaken := e.btaken
      lastBd := e.bd
      lastBtgt := e.btgt
      pc := if e.btaken then e.btgt else s.pc } := by
  rw [exBranch, if_pos hct, State.redirect]
  split <;> rfl

/-- A control transfer accesses no memory (R421). -/
theorem memOperand_of_isCT {i : Instr} (hct : i.isControlTransfer = true) : i.memOperand = none :=
  Option.eq_none_iff_forall_ne_some.2 fun _ hmem =>
    Bool.noConfusion (hct.symm.trans (memOperand_plain hmem .trap).2.1)

section transfer
variable {i : Instr} {s : State} {taken : Bool} {tgt : Word}

/-- The tags of a control transfer's record, after its operation handler (R421, R428, R442). -/
theorem operated_tags_of_isCT (hct : i.isControlTransfer = true) (hbd : s.bdPending = false) :
    (operated i s).isCT = true ∧ (operated i s).bd = false ∧ (operated i s).isLoad = false := by
  have tags := handlerOf_tags s.params i (makeRecord (.instr i) (handlerOf s.params i) s.ifid .bubble .bubble s)
  have noAccess : (handlerOf s.params i).mem = none := by
    rw [handlerOf_mem, memOperand_of_isCT hct]
    rfl
  refine ⟨tags.isCT.trans ((handlerOf_isCT _ _).trans hct), tags.bd.trans hbd, ?_⟩
  rw [Record.isLoad, show (operated i s).mem = none from tags.mem.trans noAccess]

theorem operated_dst (i : Instr) (s : State) : (operated i s).dst = instrDst i :=
  (handlerOf_tags _ _ _).dst.trans (handlerOf_dst s.params i)

/-- Outside a delay slot a control transfer is not refused, it raises nothing and it passes Memory untouched. -/
theorem exec_transfers (hs : s.status = .running) (hbd : s.bdPending = false) (hct : i.isControlTransfer = true) :
    exec i s = .next (commit (operated i s)
      (exBranch (operated i s) (exCommit (operated i s) (afterDecode i s))).clearWflag) := by
  have hbrk : i ≠ .brk := by rintro rfl; cases hct
  have unmarked : (operated i s).exc = none := operate_exc_of_isCT hct _
  rw [exec_plain hs (.inl hbd) (noTrap_of_isCT hct _) (handlerOf_legal _ hbrk), unmarked, memOperand_of_isCT hct]

/-- A control transfer without a link register. -/
theorem exec_branched (hs : s.status = .running) (hbd : s.bdPending = false) (hct : i.isControlTransfer = true)
    (hdst : instrDst i = .none) (htaken : (operated i s).btaken = taken) (htgt : (operated i s).btgt = tgt) :
    exec i s = .next (s.branched taken tgt) := by
  obtain ⟨isCT, bd, -⟩ := operated_tags_of_isCT hct hbd
  rw [exec_transfers hs hbd hct, exBranch_of_isCT isCT]
  simp only [commit, exCommit, operated_dst, hdst, bd, htaken, htgt, afterDecode, hct]
  rfl

/-- The link reaches the bypass copy in Execute and the committed one in Writeback, taken or not (R603). -/
theorem exec_branchedLink {rd : RegIx} (hs : s.status = .running) (hbd : s.bdPending = false)
    (hct : i.isControlTransfer = true) (hdst : instrDst i = .gpr rd)
    (hlink : (operated i s).resLo = linkValue s.ifid.insPC) (htaken : (operated i s).btaken = taken)
    (htgt : (operated i s).btgt = tgt) : exec i s = .next (s.branchedLink taken tgt rd) := by
  obtain ⟨isCT, bd, noLoad⟩ := operated_tags_of_isCT hct hbd
  rw [exec_transfers hs hbd hct, exBranch_of_isCT isCT]
  simp only [commit, exCommit, operated_dst, hdst, Record.result, noLoad, bd, hlink, htaken, htgt, afterDecode, hct]
  rfl

end transfer

/-- `x[rs] != x[rt]` as R611 writes it. -/
theorem condNotEqual_eq (a b : Word) : condNotEqual a b = decide (a ≠ b) := (decide_not (p := a = b)).symm

end Sys2Proof.Machine

namespace Sys2Proof.Proofs

open Sys2Proof.Machine

/-- Settles O13: condition and target are the handler's, on the values Decode read. -/
theorem branchResults : Obligations.BranchResults := by
  unfold Obligations.BranchResults
  intro rs rt offset
  refine ⟨by simp [decode], by simp [decode], by simp [decode], by simp [decode], by simp [decodeRegimm],
    by simp [decodeRegimm], fun s hs hbd => ⟨?beq, ?bne, ?blez, ?bgtz, ?bltz, ?bgez⟩⟩
  case bne => exact exec_branched hs hbd rfl rfl (condNotEqual_eq _ _) rfl
  all_goals exact exec_branched hs hbd rfl rfl rfl rfl

/-- Settles O14: as O13, and the link register is the destination on both outcomes. -/
theorem linkingBranchResults : Obligations.LinkingBranchResults := by
  unfold Obligations.LinkingBranchResults
  intro rs offset
  refine ⟨by simp [decodeRegimm], by simp [decodeRegimm], fun s hs hbd => ⟨?bltzal, ?bgezal⟩⟩
  all_goals exact exec_branchedLink hs hbd rfl rfl rfl rfl rfl

/-- Settles O15: the handler takes every jump, to the region's target or to the value Decode read. -/
theorem jumpResults : Obligations.JumpResults := by
  unfold Obligations.JumpResults
  intro target rs rt rd shamt
  refine ⟨by simp [decode], by simp [decode], by simp [decodeSpecial], by simp [decodeSpecial],
    fun s hs hbd => ⟨?j, ?jal, ?jr, ?jalr⟩⟩
  case j => exact exec_branched hs hbd rfl rfl rfl rfl
  case jal => exact exec_branchedLink hs hbd rfl rfl rfl rfl rfl
  case jr => exact exec_branched hs hbd rfl rfl rfl rfl
  case jalr => exact exec_branchedLink hs hbd rfl rfl rfl rfl rfl

end Sys2Proof.Proofs

/-! PROOFS, family 44_loadstore: the plain loads (O16), the partial-word loads (O17), the six stores (O19), and the
pairs `lwl`/`lwr` and `swl`/`swr` on an unaligned word (O30, O31). -/

namespace Sys2Proof.Machine

/-! ### A memory instruction that completes (R450 to R456, R470) -/

section access
variable {i : Instr} {k : MemKind} {rs r : RegIx} {offset : Imm16} {s t : State}
  (hi : i.memOperand = some (k, rs, offset))
include hi

theorem operated_mem : (operated i s).mem = some k :=
  (handlerOf_tags s.params i _).mem.trans ((handlerOf_mem s.params i).trans (by rw [hi]; rfl))

/-- A load reaches the bypass copy in Memory and the committed one in Writeback (R456, R470). -/
theorem exec_load {v : Word} (hk : k.isLoad = true) (hdst : instrDst i = .gpr r) (hs : s.status = .running)
    (hf : accessFault s.params k (effectiveAddress (s.byp.read rs) offset) = none)
    (hv : loadValue k s.mem (effectiveAddress (s.byp.read rs) offset) (operated i s).vrt = v) :
    exec i s = .next (s.retiredGpr r v) := by
  subst hv
  rw [exec_mem hi hs, hf, ← operated_addr hi]
  rw [← operated_addr hi] at hf
  rw [memRecord_load (operated_mem hi) (operated_exc hi) hf hk]
  simp only [commit, memAccess, operated_dst, hdst, Record.result, Record.isLoad, operated_mem hi, hk, if_true,
    retired_deferredCommit]
  rfl

/-- A store has no destination but memory (R453, R470). -/
theorem exec_store (hk : k.isLoad = false) (hdst : instrDst i = .none) (hs : s.status = .running)
    (hf : accessFault s.params k (effectiveAddress (s.byp.read rs) offset) = none) :
    exec i s = .next { s.retired with
      mem := storeMem k s.mem (effectiveAddress (s.byp.read rs) offset) (operated i s).vrt (operated i s).vf } := by
  have kept : memRecord (operated i s) s = operated i s := by
    rw [← operated_addr hi] at hf
    simp [memRecord, operated_mem hi, operated_exc hi, hf, hk]
  rw [exec_mem hi hs, hf, kept, ← operated_addr hi]
  simp only [commit, memAccess, operated_dst, hdst, hk]
  rfl

/-- A load whose run goes on has passed the checks. -/
theorem exec_load_running (hk : k.isLoad = true) (hdst : instrDst i = .gpr r) (h : exec i s = .next t)
    (ht : t.status = .running) :
    t = s.retiredGpr r (loadValue k s.mem (effectiveAddress (s.byp.read rs) offset) (operated i s).vrt) := by
  rw [exec_load hi hk hdst (running_of_exec h) (exec_accesses hi h ht).1 rfl] at h
  cases h
  rfl

/-- A store whose run goes on has passed the checks. -/
theorem exec_store_running (hk : k.isLoad = false) (hdst : instrDst i = .none) (h : exec i s = .next t)
    (ht : t.status = .running) :
    t = { s.retired with
      mem := storeMem k s.mem (effectiveAddress (s.byp.read rs) offset) (operated i s).vrt (operated i s).vf } := by
  rw [exec_store hi hk hdst (running_of_exec h) (exec_accesses hi h ht).1] at h
  cases h
  rfl

/-- The effect of a store, byte by byte (R653, R654, R670 to R675). -/
theorem exec_store_bytes {v : Word} (hk : k.isLoad = false) (hdst : instrDst i = .none) (hs : s.status = .running)
    (hmem : s.mem.wf = true) (hv : (if k = .swc1 then (operated i s).vf else (operated i s).vrt) = v)
    (hf : accessFault s.params k (effectiveAddress (s.byp.read rs) offset) = none) :
    ∃ t, exec i s = .next t ∧ t = { s.retired with mem := t.mem } ∧ ∀ b : Word,
      t.mem.read b = (storedByte k (effectiveAddress (s.byp.read rs) offset) v b).getD (s.mem.read b) :=
  ⟨_, exec_store hi hk hdst hs hf, rfl, fun b => hv ▸ read_storeMem hmem k _ _ _ b⟩

end access

/-- With nothing in flight `swc1` reads its register, whatever FPR_HAZARD_MODE is (R432). -/
theorem operated_swc1_vf (ft rs : RegIx) (offset : Imm16) (s : State) :
    (operated (.swc1 ft offset rs) s).vf = s.fpr.readF ft :=
  readFprOperand_stale (h := handleSwc1 ft offset rs) (e := .bubble) (m := .bubble) rfl (.inr ⟨nofun, nofun⟩)

/-! ### The partial-word loads, byte by byte (R654, R666, R667) -/

/-- The aligned address as R654 writes it. -/
theorem wordBase_eq (a : Word) : wordBase a = a &&& ~~~3#32 := congrArg (a &&& ·) (by decide)

theorem lowMask_getLsbD {n : Nat} (hn : n < 32) (i : Nat) : ((1#32 <<< n) - 1#32).getLsbD i = decide (i < n) := by
  have power : (1#32 <<< n).toNat = 2 ^ n := by rw [← BitVec.twoPow_eq, BitVec.toNat_twoPow_of_lt hn]
  have positive : 1#32 ≤ 1#32 <<< n := by
    rw [BitVec.le_def, power]
    exact Nat.one_le_two_pow
  rw [← BitVec.testBit_toNat, BitVec.toNat_sub_of_le positive, power]
  exact Nat.testBit_two_pow_sub_one n i

theorem loadLwl_getLsbD (m : Memory) (a old : Word) {i : Nat} (hi : i < 32) :
    (loadLwl m a old).getLsbD i =
      if 8 * (a.toNat % 4) ≤ i then (m.read32 (wordBase a)).getLsbD (i - 8 * (a.toNat % 4)) else old.getLsbD i := by
  simp only [loadLwl, byteInWord_eq, BitVec.getLsbD_or, BitVec.getLsbD_and, BitVec.getLsbD_shiftLeft,
    lowMask_getLsbD (show 8 * (a.toNat % 4) < 32 by omega)]
  by_cases hin : i < 8 * (a.toNat % 4)
  · simp [hin, Nat.not_le_of_lt hin]
  · simp [hi, hin, Nat.le_of_not_lt hin]

theorem loadLwr_getLsbD (m : Memory) (a old : Word) {i : Nat} (hi : i < 32) :
    (loadLwr m a old).getLsbD i =
      if 8 * (3 - a.toNat % 4) + i < 32 then (m.read32 (wordBase a)).getLsbD (8 * (3 - a.toNat % 4) + i)
      else old.getLsbD i := by
  simp only [loadLwr, byteInWord_eq, BitVec.getLsbD_or, BitVec.getLsbD_and, BitVec.getLsbD_not,
    BitVec.getLsbD_ushiftRight, getLsbD_ones]
  by_cases hin : 8 * (3 - a.toNat % 4) + i < 32
  · simp [hi, hin]
  · simp [hi, hin, BitVec.getLsbD_of_ge _ _ (Nat.le_of_not_lt hin)]

theorem byteOf_eq_of_getLsbD {v w : Word} {j l : Nat}
    (h : ∀ i < 8, v.getLsbD (24 - 8 * j + i) = w.getLsbD (24 - 8 * l + i)) : byteOf v j = byteOf w l := by
  apply BitVec.eq_of_getLsbD_eq
  intro i hi
  rw [byteOf_getLsbD, byteOf_getLsbD, h i hi]

/-- `lwl` loads the bytes from `a` to the end of its aligned word, and keeps the others (R666). -/
theorem byteOf_loadLwl (m : Memory) (a old : Word) {j : Nat} (hj : j < 4) :
    byteOf (loadLwl m a old) j =
      if a.toNat % 4 + j < 4 then m.read (a + BitVec.ofNat 32 j) else byteOf old j := by
  split
  · next hin =>
    have position : (a + BitVec.ofNat 32 j).toNat % 4 = a.toNat % 4 + j := by bv_omega
    rw [← byteOf_read32_wordBase m (a := a) (by bv_omega), position]
    refine byteOf_eq_of_getLsbD fun i hi => ?_
    rw [loadLwl_getLsbD m a old (by omega), if_pos (by omega)]
    congr 1
    omega
  · next hout =>
    refine byteOf_eq_of_getLsbD fun i hi => ?_
    rw [loadLwl_getLsbD m a old (by omega), if_neg (by omega)]

/-- `lwr` loads the bytes from the start of the aligned word of `a` to `a`, and keeps the others (R667); byte `j`
of four that end at `a` stands at `a - (3 - j)`. -/
theorem byteOf_loadLwr (m : Memory) (a old : Word) {j : Nat} (hj : j < 4) :
    byteOf (loadLwr m a old) j =
      if 3 ≤ a.toNat % 4 + j then m.read (a - BitVec.ofNat 32 (3 - j)) else byteOf old j := by
  split
  · next hin =>
    have position : (a - BitVec.ofNat 32 (3 - j)).toNat % 4 = a.toNat % 4 + j - 3 := by bv_omega
    rw [← byteOf_read32_wordBase m (a := a) (by bv_omega), position]
    refine byteOf_eq_of_getLsbD fun i hi => ?_
    rw [loadLwr_getLsbD m a old (by omega), if_pos (by omega)]
    congr 1
    omega
  · next hout =>
    refine byteOf_eq_of_getLsbD fun i hi => ?_
    rw [loadLwr_getLsbD m a old (by omega), if_neg (by omega)]

/-! ### The pairs (R655) -/

theorem word_eq_of_byteOf {v w : Word} (h : ∀ j < 4, byteOf v j = byteOf w j) : v = w := by
  apply BitVec.eq_of_getLsbD_eq
  intro i hi
  have bit : (byteOf v (3 - i / 8)).getLsbD (i % 8) = (byteOf w (3 - i / 8)).getLsbD (i % 8) := by
    rw [h _ (by omega)]
  have position : 24 - 8 * (3 - i / 8) + i % 8 = i := by omega
  have inByte : i % 8 < 8 := Nat.mod_lt _ (by decide)
  simpa only [byteOf_getLsbD, position, inByte, decide_true, Bool.true_and] using bit

/-- Each byte of the word at `x` is loaded by one of the two. -/
theorem loadLwr_loadLwl (m : Memory) (x old : Word) : loadLwr m (x + 3#32) (loadLwl m x old) = m.read32 x := by
  refine word_eq_of_byteOf fun j hj => ?_
  rw [byteOf_loadLwr m _ _ hj, byteOf_loadLwl m _ _ hj, show byteOf (m.read32 x) j = _ from extract_read32 m x hj]
  split
  · congr 1
    bv_omega
  · exact if_pos (by bv_omega)

/-- `swl` at `a` stores the first bytes of the word, up to the end of the aligned word (R674). -/
theorem storedByte_swl (a v b : Word) :
    storedByte .swl a v b =
      if a.toNat % 4 + (b - a).toNat < 4 then some (byteOf v (b - a).toNat) else none := by
  have range : (b.toNat / 4 = a.toNat / 4 ∧ a.toNat ≤ b.toNat) ↔ a.toNat % 4 + (b - a).toNat < 4 := by bv_omega
  simp only [storedByte, range]
  split
  · next hin => rw [show b.toNat - a.toNat = (b - a).toNat by bv_omega]
  · rfl

/-- `swr` at `x + 3` stores the last bytes of the word at `x`, from the start of the aligned word on (R675). -/
theorem storedByte_swr_add_three (x v b : Word) :
    storedByte .swr (x + 3#32) v b =
      if (b - x).toNat < 4 ∧ 3 ≤ (x + 3#32).toNat % 4 + (b - x).toNat then some (byteOf v (b - x).toNat)
      else none := by
  have range : (b.toNat / 4 = (x + 3#32).toNat / 4 ∧ b.toNat ≤ (x + 3#32).toNat) ↔
      (b - x).toNat < 4 ∧ 3 ≤ (x + 3#32).toNat % 4 + (b - x).toNat := by bv_omega
  simp only [storedByte, range]
  split
  · next hin => rw [show 3 - ((x + 3#32).toNat - b.toNat) = (b - x).toNat by bv_omega]
  · rfl

/-- Each byte of the word at `x` is stored by one of the two, and no other byte by either. -/
theorem storedByte_pair (x v b : Word) (old : Byte) :
    (storedByte .swr (x + 3#32) v b).getD ((storedByte .swl x v b).getD old) =
      if (b - x).toNat < 4 then byteOf v (b - x).toNat else old := by
  rw [storedByte_swr_add_three, storedByte_swl]
  by_cases hword : (b - x).toNat < 4
  · by_cases hlast : 3 ≤ (x + 3#32).toNat % 4 + (b - x).toNat
    · rw [if_pos ⟨hword, hlast⟩, if_pos hword]
      rfl
    · rw [if_neg (hlast ·.2), if_pos (by bv_omega), if_pos hword]
      rfl
  · rw [if_neg (hword ·.1), if_neg (by omega), if_neg hword]
    rfl

end Sys2Proof.Machine

namespace Sys2Proof.Proofs

open Sys2Proof.Machine

/-- Settles O19, row by row: the data is the handler's operand, and each byte is as `storedByte` says. -/
theorem storeResults : Obligations.StoreResults := by
  unfold Obligations.StoreResults
  simp only [List.forall_mem_cons, List.not_mem_nil, false_imp_iff, implies_true, and_true]
  and_intros
  all_goals
    intro rs rt offset
    refine ⟨by simp [decode], fun s hs hmem halign hmapped =>
      exec_store_bytes rfl rfl rfl hs hmem ?_ (accessFault_none halign hmapped)⟩
  rotate_right 1
  · exact operated_swc1_vf rt rs offset s
  all_goals rfl

/-- Settles O30: `lwl` leaves memory and its own result for `lwr` to merge. -/
theorem partialLoadPair : Obligations.PartialLoadPair := by
  unfold Obligations.PartialLoadPair
  intro s t u rt rs rs' o o' x hrt hx hlwl ht hx' hlwr hu
  have first : t = s.retiredGpr rt (loadLwl s.mem x (s.byp.read rt)) :=
    hx ▸ exec_load_running (i := .lwl rt o rs) rfl rfl rfl hlwl ht
  have second : u = t.retiredGpr rt (loadLwr t.mem (x + 3#32) (t.byp.read rt)) :=
    hx' ▸ exec_load_running (i := .lwr rt o' rs') rfl rfl rfl hlwr hu
  have merged : t.byp.read rt = loadLwl s.mem x (s.byp.read rt) := by
    rw [first]
    exact RegFile.read_write_same _ _ _ hrt
  have sameMemory : t.mem = s.mem := by rw [first]; rfl
  rw [second, merged, sameMemory, loadLwr_loadLwl]
  exact RegFile.read_write_same _ _ _ hrt

/-- Settles O31: of the bytes the two store, each is the byte of x[rt] that belongs there. -/
theorem partialStorePair : Obligations.PartialStorePair := by
  unfold Obligations.PartialStorePair
  intro s t u rt rs rs' o o' x hmem hx hswl ht hx' hswr hu b
  have first : t = { s.retired with mem := storeSwl s.mem x (s.byp.read rt) } :=
    hx ▸ exec_store_running (i := .swl rt o rs) rfl rfl rfl hswl ht
  have second : u = { t.retired with mem := storeSwr t.mem (x + 3#32) (t.byp.read rt) } :=
    hx' ▸ exec_store_running (i := .swr rt o' rs') rfl rfl rfl hswr hu
  have canonical : t.mem.wf = true := by
    rw [first]
    exact storeMem_wf hmem .swl x (s.byp.read rt) 0#32
  have sameData : t.byp.read rt = s.byp.read rt := by rw [first]; rfl
  have between : t.mem.read b = (storedByte .swl x (s.byp.read rt) b).getD (s.mem.read b) := by
    rw [first]
    exact read_storeSwl hmem _ _ _
  rw [second]
  show (storeSwr t.mem (x + 3#32) (t.byp.read rt)).read b = _
  rw [read_storeSwr canonical, sameData, between]
  exact storedByte_pair _ _ _ _

/-- Settles O16, row by row: the value is the load's, at its effective address. -/
theorem loadResults : Obligations.LoadResults := by
  unfold Obligations.LoadResults
  simp only [List.forall_mem_cons, List.not_mem_nil, false_imp_iff, implies_true, and_true]
  and_intros
  all_goals
    intro rs rt offset
    refine ⟨by simp [decode], fun s hs halign hmapped => exec_load rfl rfl rfl hs ?_ rfl⟩
    exact accessFault_none halign hmapped

/-- Settles O17: as O16, at any alignment; the merge takes the old x[rt] that Decode read. -/
theorem partialLoadResults : Obligations.PartialLoadResults := by
  unfold Obligations.PartialLoadResults
  intro rs rt offset
  simp only [← wordBase_eq, ← byteInWord_eq]
  refine ⟨by simp [decode], by simp [decode], fun s hs hmapped => ⟨?lwl, ?lwr⟩⟩
  case lwl => exact exec_load rfl rfl rfl hs (accessFault_none (Nat.mod_one _) hmapped) rfl
  case lwr => exact exec_load rfl rfl rfl hs (accessFault_none (Nat.mod_one _) hmapped) rfl

end Sys2Proof.Proofs

/-! PROOFS, family 45_system_fp: the trap step in the pipeline (O52), and the floating-point moves (O20). -/

namespace Sys2Proof.Machine

/-! ### The cycle of a trap that the run survives (R702, R811 to R814) -/

/-- Where the trap is not marked and the emulator does not end the run, the run goes on (R810). -/
theorem goesOn_of_trap {s : State} (hs : s.status = .running) (htags : s.memwb.tagsOk)
    (hsys : s.memwb.isSyscall = true) (hexc : s.memwb.exc = none) (hill : s.memwb.isIllegal = false)
    (hstays : (s.sysReply s.memwb).leaves = false) : (wbState s.memwb s).status.isRunning = true := by
  have hbubble : s.memwb.isBubble = false := by
    refine Bool.eq_false_iff.2 fun hb => ?_
    rw [htags.1 hb] at hsys
    cases hsys
  rw [wbState_trap _ _ hexc hbubble hill hsys, State.trap, State.trapWith, hstays, isRunning_iff]
  exact hs

/-- With fetch two words past the trap, it resumes at the word behind the trap, or at the trap itself (R814). -/
theorem resumePC_of_pc {s : State} {w : Record} (hpc : s.pc = w.insPC + 8#32) :
    s.resumePC w = if s.params.syscallResume = .after then w.insPC + 4#32 else w.insPC := by
  rw [State.resumePC, hpc]
  cases s.params.syscallResume with
  | after =>
    show w.insPC + 8#32 - 4#32 = w.insPC + 4#32
    bv_omega
  | replay => rfl

/-- With only bubbles behind it, a trap's cycle is Writeback and then a fetch in the state that leaves (R403,
R811, R814). -/
theorem cycle_trap {s : State} (hI : s.Inv) (hs : s.status = .running) (hsys : s.memwb.isSyscall = true)
    (hr : (wbState s.memwb s).status.isRunning = true) (hbud : (wbState s.memwb s).budgetSpent = false) :
    cycle s = { wbState s.memwb s with
      ifid := (wbState s.memwb s).fetchEntry
      pc := (wbState s.memwb s).pc + 4#32
      nfetched := (wbState s.memwb s).nfetched + 1
      wflag := clearFlags
      branchStall := false
      idex := .bubble
      exmem := .bubble
      memwb := .bubble } := by
  obtain ⟨hidex, hexmem, -⟩ := hI.drainMemwb hs hsys
  have hexecuted : exStepRecord s.params s.idex = .bubble := by rw [hidex]; rfl
  have haccessed : memOut s = .bubble := by rw [memOut, hexmem, memRecord_bubble]
  have hmem : afterMemory s = (wbState s.memwb s).clearWflag := by rw [afterMemory, hexmem, hidex]; rfl
  have hid := idOut_behind_trap hI hs hr (.inr (.inr hsys))
  -- nothing gates the fetch: Writeback opened the syscall gate, and no control transfer is in Execute
  have hgate : (afterMemory s).syscallStall = false := by
    rw [afterMemory_syscallStall, (wbState_trap_resumes hsys hI.memwbTags hr).1]
  have hbs : s.branchStall = false := by rw [hI.branchGate hs, hidex]; rfl
  have hopen : { (wbState s.memwb s).clearWflag with branchStall := false }.budgetSpent = false := hbud
  rw [cycle_goes_on hr, afterFetch, hgate, hid, hbs, hexecuted, haccessed, hmem, ifState_open hopen,
    State.budgetCheck, if_neg (by simp)]
  rfl

end Sys2Proof.Machine

namespace Sys2Proof.Proofs

open Sys2Proof.Machine

/-- Settles O52: only bubbles follow the trap, so its cycle is the return from it and a fetch; the invariant says
where fetch stands, and so where it resumes. -/
theorem trapStepInThePipeline : Obligations.TrapStepInThePipeline := by
  unfold Obligations.TrapStepInThePipeline
  intro s t hI hs hsys hexc hill hbud hstays hst r resume
  obtain ⟨-, rfl⟩ := step_next hst
  have hr := goesOn_of_trap hs hI.memwbTags hsys hexc hill hstays
  have hresume : s.resumePC s.memwb = resume := resumePC_of_pc (hI.trapPC hs hbud _ (.inr (.inr rfl)) hsys)
  rw [cycle_trap hI hs hsys hr (budgetSpent_of_none (by rwa [wbState_params])),
    (wbState_trap_resumes hsys hI.memwbTags hr).2, ← hresume]
  exact ⟨rfl, rfl, rfl, rfl, rfl, rfl, rfl, rfl, rfl, rfl, rfl, rfl, hs, fetchEntry_valid _, fetchEntry_insPC _,
    rfl, rfl⟩

/-- Settles O20: neither move can fault, so what Decode read is committed; with nothing in flight `mfc1` reads its
register, whatever FPR_HAZARD_MODE is (R432). -/
theorem floatMoveResults : Obligations.FloatMoveResults := by
  unfold Obligations.FloatMoveResults
  intro rt fs shamt fn
  refine ⟨by simp [decodeCop1], by simp [decodeCop1], fun s hs => ⟨?mfc1, ?mtc1⟩⟩
  case mfc1 =>
    have stale : (operated (.mfc1 rt fs) s).resLo = s.fpr.readF fs :=
      readFprOperand_stale (h := handleMfc1 rt fs) (e := .bubble) (m := .bubble) rfl (.inr ⟨nofun, nofun⟩)
    exact exec_gprResult hs rfl rfl rfl stale
  case mtc1 => exact exec_commits hs rfl rfl nofun rfl rfl

end Sys2Proof.Proofs
